-- ==== Sys2Proof/Word.lean ====
section
/-! DEFINITION. The word, byte and register-index types of RSACORE (spec 00_scope.md R12, R13; 10_state.md R30; 30_encoding.md R58). -/

namespace Sys2Proof

/-- A bus word and a command word: 32 bits (R13, R43, R56). -/
abbrev Word := BitVec 32

/-- A byte of a bus word (R46). -/
abbrev Byte := BitVec 8

/-- The eight operand registers (R6: NREG = 8, "selected by a 3-bit field"), under their assembler names `r0` to `r7` (R64). -/
inductive Reg where
  | r0 | r1 | r2 | r3 | r4 | r5 | r6 | r7
deriving DecidableEq, Repr

/-- KEYRD's selector SEL (R59): 0 reads KEY_N, 1 reads KEY_E; written `N` and `E` (R64). -/
inductive KeySel where
  | n | e
deriving DecidableEq, Repr

end Sys2Proof
end

