-- ==== Sys2Proof/Config.lean ====
section
/-! DEFINITION. The parameters an implementation fixes (K, BASE: 00_scope.md R4, R7), the block's constants (R6, R22) and the free values
(93_implementation_defined.md, treatment "any value"). -/

namespace Sys2Proof

/-- The two parameters "the model takes as an argument" (R4, R7). They are not state (R15): State carries them in a field that no step writes,
so that every statement about all states is a statement about every K and every BASE (log entry 1). -/
structure Params where
  /-- K, the operand width in bits (R4). -/
  k : Nat
  /-- BASE, the byte address of the 8 KiB aperture on the host bus (R7). -/
  base : Nat
deriving DecidableEq, Repr

/-- K/32: how many RDATA words an operand register has (R16, R27). -/
def Params.words (p : Params) : Nat := p.k / 32

namespace Config

/-- The reference configuration: K = 2048 (R4). DESIGN CHOICE (log entry 1): BASE = 0, which the spec leaves open (R7). -/
def reference : Params := { k := 2048, base := 0 }

/-- NREG = 8, "fixed and is not a parameter" (R6). -/
def nreg : BitVec 4 := 8#4

/-- The constant of the ID register: "RSA1" (R22). -/
def id : Word := 0x52534131#32

/-- FREE VALUE (log entry 5). The draws of the spec: an operand-window read while BUSY = 1 (R29), a magnitude word after reset (R33), a key register
after reset (R35). It has no body, so nothing is provable of the value it gives; it is applied to the counter `State.draws`. -/
opaque freeWord : Nat → Word

end Config

end Sys2Proof
end

