-- ==== Sys2Proof/Syntax.lean ====
section
/-! DEFINITION. The commands of RSACORE: one constructor per row of the opcode map (30_encoding.md R61), operands in the assembler's order (R64). -/

namespace Sys2Proof

/-- The eleven commands (R2, R61). -/
inductive Instr where
  /-- `NOP` (R68). -/
  | nop
  /-- `MODRED rd, ra, rc` (R69). -/
  | modred (rd ra rc : Reg)
  /-- `MODMUL rd, ra, rb, rc` (R70). -/
  | modmul (rd ra rb rc : Reg)
  /-- `MODPOW rd, ra, rb, rc` (R71): base ra, exponent rb, modulus rc. -/
  | modpow (rd ra rb rc : Reg)
  /-- `GCD rd, ra, rb` (R72). -/
  | gcd (rd ra rb : Reg)
  /-- `MODINV rd, ra, rc` (R73): value ra, modulus rc. -/
  | modinv (rd ra rc : Reg)
  /-- `ISPRIME ra` (R74). -/
  | isprime (ra : Reg)
  /-- `KEYSETUP ra, rb, rc, v` (R81): p in ra, q in rb, d in rc, `v` the validateChecks flag V. -/
  | keysetup (ra rb rc : Reg) (v : Bool)
  /-- `SIGN rd, ra` (R82): signature to rd, digest in ra. -/
  | sign (rd ra : Reg)
  /-- `VERIFY ra, rb` (R83): signature in ra, digest in rb. -/
  | verify (ra rb : Reg)
  /-- `KEYRD rd, N` or `KEYRD rd, E` (R84). -/
  | keyrd (rd : Reg) (sel : KeySel)
deriving DecidableEq, Repr

end Sys2Proof
end

