-- ==== Sys2Proof/WellFormed.lean ====
section
/-! DEFINITION. What is well formed: the parameters (00_scope.md R4, R7) and the fields of a format C command word (30_encoding.md R57, R59, R60, R62).
A term of `Instr` holds only fields its row uses, each of its exact type; `Instr.wellFormed` (Decode.lean) asks this file's check of the fields it is encoded in. -/

namespace Sys2Proof

/-- 32 ≤ K ≤ 4096, K mod 32 = 0 (R4); BASE a multiple of 0x2000 (R7). -/
def Params.wf (p : Params) : Bool :=
  decide (32 ≤ p.k) && decide (p.k ≤ 4096) && decide (p.k % 32 = 0) && decide (p.base % 0x2000 = 0)

/-- Format C (R57): every field of a command word, the must-be-zero fields Z0 to Z4 among them. -/
structure FormatC where
  op : BitVec 8
  rd : BitVec 3
  z0 : BitVec 1
  ra : BitVec 3
  z1 : BitVec 1
  rb : BitVec 3
  z2 : BitVec 1
  rc : BitVec 3
  z3 : BitVec 1
  f  : BitVec 4
  z4 : BitVec 4
deriving DecidableEq, Repr

/-- R60: "In every command, Z0, Z1, Z2, Z3 and Z4 must be 0". -/
def FormatC.zerosClear (c : FormatC) : Bool :=
  c.z0 == 0 && c.z1 == 0 && c.z2 == 0 && c.z3 == 0 && c.z4 == 0

/-- R62: the OP values 0x07 to 0x0F and 0x14 to 0xFF are reserved. -/
def FormatC.opAssigned (c : FormatC) : Bool :=
  decide (c.op.toNat ≤ 0x06) || (decide (0x10 ≤ c.op.toNat) && decide (c.op.toNat ≤ 0x13))

/-- The column "unused fields (must be 0)" of R61, row by row; F[3:1] must be 0 for KEYSETUP and KEYRD (R59). -/
def FormatC.unusedClear (c : FormatC) : Bool :=
  match c.op.toNat with
  | 0x00 => c.rd == 0 && c.ra == 0 && c.rb == 0 && c.rc == 0 && c.f == 0
  | 0x01 => c.rb == 0 && c.f == 0
  | 0x02 => c.f == 0
  | 0x03 => c.f == 0
  | 0x04 => c.rc == 0 && c.f == 0
  | 0x05 => c.rb == 0 && c.f == 0
  | 0x06 => c.rd == 0 && c.rb == 0 && c.rc == 0 && c.f == 0
  | 0x10 => c.rd == 0 && decide (c.f.toNat ≤ 1)
  | 0x11 => c.rb == 0 && c.rc == 0 && c.f == 0
  | 0x12 => c.rd == 0 && c.rc == 0 && c.f == 0
  | 0x13 => c.ra == 0 && c.rb == 0 && c.rc == 0 && decide (c.f.toNat ≤ 1)
  | _ => true

/-- A word that is a command of this block (R60, R62): an assigned OP, and nothing set that must be 0. -/
def FormatC.wellFormed (c : FormatC) : Bool :=
  c.opAssigned && c.zerosClear && c.unusedClear

end Sys2Proof
end

