-- ==== Sys2Proof/Decode.lean ====
section
/-! DEFINITION. Decoding of command words (30_encoding.md R57 to R63), total on every 32-bit word and rejecting by name, and the encoder (R57, R64).
A command arrives as one bus word (R56), so there is no byte order to settle here. -/

namespace Sys2Proof

/-! ### Fields -/

/-- The register a 3-bit field selects (R58: index r selects Rr). -/
def Reg.ofBits (b : BitVec 3) : Reg :=
  match b.toNat with
  | 0 => .r0
  | 1 => .r1
  | 2 => .r2
  | 3 => .r3
  | 4 => .r4
  | 5 => .r5
  | 6 => .r6
  | _ => .r7

/-- The index of a register (R58). -/
def Reg.toBits : Reg → BitVec 3
  | .r0 => 0#3
  | .r1 => 1#3
  | .r2 => 2#3
  | .r3 => 3#3
  | .r4 => 4#3
  | .r5 => 5#3
  | .r6 => 6#3
  | .r7 => 7#3

/-- The bits of format C (R57). -/
def FormatC.ofWord (w : Word) : FormatC where
  op := w.extractLsb' 0 8
  rd := w.extractLsb' 8 3
  z0 := w.extractLsb' 11 1
  ra := w.extractLsb' 12 3
  z1 := w.extractLsb' 15 1
  rb := w.extractLsb' 16 3
  z2 := w.extractLsb' 19 1
  rc := w.extractLsb' 20 3
  z3 := w.extractLsb' 23 1
  f := w.extractLsb' 24 4
  z4 := w.extractLsb' 28 4

/-- RD, bits 10:8 (R57). -/
def fieldRd (w : Word) : Reg := Reg.ofBits (w.extractLsb' 8 3)

/-- RA, bits 14:12 (R57). -/
def fieldRa (w : Word) : Reg := Reg.ofBits (w.extractLsb' 12 3)

/-- RB, bits 18:16 (R57). -/
def fieldRb (w : Word) : Reg := Reg.ofBits (w.extractLsb' 16 3)

/-- RC, bits 22:20 (R57). -/
def fieldRc (w : Word) : Reg := Reg.ofBits (w.extractLsb' 20 3)

/-- V, bit F[0] = bit 24 of KEYSETUP (R59). -/
def fieldV (w : Word) : Bool := w.getLsbD 24

/-- SEL, bit F[0] = bit 24 of KEYRD (R59). -/
def fieldSel (w : Word) : KeySel := if w.getLsbD 24 then .e else .n

/-! ### The opcode map -/

/-- One row of the opcode map (R61): "A word w encodes the command exactly when `(w AND mask) = match`". -/
structure OpRow where
  mnemonic : String
  /-- The column `match`. -/
  fixed : Word
  mask : Word
  build : Word → Instr

/-- R61's rows for the numeric family. -/
def numericRows : List OpRow :=
  [ ⟨"NOP",      0x00000000#32, 0xFFFFFFFF#32, fun _ => .nop⟩,
    ⟨"MODRED",   0x00000001#32, 0xFF8F88FF#32, fun w => .modred (fieldRd w) (fieldRa w) (fieldRc w)⟩,
    ⟨"MODMUL",   0x00000002#32, 0xFF8888FF#32, fun w => .modmul (fieldRd w) (fieldRa w) (fieldRb w) (fieldRc w)⟩,
    ⟨"MODPOW",   0x00000003#32, 0xFF8888FF#32, fun w => .modpow (fieldRd w) (fieldRa w) (fieldRb w) (fieldRc w)⟩,
    ⟨"GCD",      0x00000004#32, 0xFFF888FF#32, fun w => .gcd (fieldRd w) (fieldRa w) (fieldRb w)⟩,
    ⟨"MODINV",   0x00000005#32, 0xFF8F88FF#32, fun w => .modinv (fieldRd w) (fieldRa w) (fieldRc w)⟩,
    ⟨"ISPRIME",  0x00000006#32, 0xFFFF8FFF#32, fun w => .isprime (fieldRa w)⟩ ]

/-- R61's rows for the RSA family. -/
def rsaRows : List OpRow :=
  [ ⟨"KEYSETUP", 0x00000010#32, 0xFE888FFF#32, fun w => .keysetup (fieldRa w) (fieldRb w) (fieldRc w) (fieldV w)⟩,
    ⟨"SIGN",     0x00000011#32, 0xFFFF88FF#32, fun w => .sign (fieldRd w) (fieldRa w)⟩,
    ⟨"VERIFY",   0x00000012#32, 0xFFF88FFF#32, fun w => .verify (fieldRa w) (fieldRb w)⟩,
    ⟨"KEYRD",    0x00000013#32, 0xFEFFF8FF#32, fun w => .keyrd (fieldRd w) (fieldSel w)⟩ ]

/-- The opcode map (R61). -/
def opRows : List OpRow := numericRows ++ rsaRows

/-- A row matches a word (R61). -/
def OpRow.hits (r : OpRow) (w : Word) : Bool := (w &&& r.mask) == r.fixed

/-- Why a word is no command (R62). -/
inductive Illegal where
  /-- Its OP is one of the reserved values 0x07 to 0x0F, 0x14 to 0xFF. -/
  | reservedOpcode
  /-- Its OP is assigned, but a must-be-zero bit or an unused field is not 0 (R60). -/
  | mustBeZero
deriving DecidableEq, Repr

/-- The answer of the decoder (R63): `Illegal | Cmd(...)`. -/
inductive Decoded where
  | cmd (i : Instr)
  | illegal (why : Illegal)
deriving DecidableEq, Repr

/-- R63: the first row that matches decides; no row, no command. -/
def decode (w : Word) : Decoded :=
  match opRows.find? (fun r => r.hits w) with
  | some r => .cmd (r.build w)
  | none => .illegal (if (FormatC.ofWord w).opAssigned then .mustBeZero else .reservedOpcode)

/-- The command of a decoder's answer, if it is one. -/
def Decoded.instr? : Decoded → Option Instr
  | .cmd i => some i
  | .illegal _ => none

/-- The host's view of the decoder: the word of `nbits` bits, every bit above them 0 (a command is one 32-bit word, R56). -/
def decodeTableWord (nbits w : Nat) : Option Instr :=
  (decode (BitVec.ofNat 32 (w % 2 ^ nbits))).instr?

/-! ### The encoder -/

/-- F[0] as the 4-bit field F (R59). -/
def flagF (b : Bool) : BitVec 4 := if b then 1#4 else 0#4

/-- SEL as a bit (R59). -/
def KeySel.toBool : KeySel → Bool
  | .n => false
  | .e => true

/-- A format C record with every unused and must-be-zero field 0. -/
def FormatC.command (op : BitVec 8) (rd ra rb rc : BitVec 3) (f : BitVec 4) : FormatC :=
  { op := op, rd := rd, z0 := 0, ra := ra, z1 := 0, rb := rb, z2 := 0, rc := rc, z3 := 0, f := f, z4 := 0 }

/-- The fields of each command: the table of R64. -/
def Instr.format : Instr → FormatC
  | .nop => .command 0x00#8 0 0 0 0 0
  | .modred rd ra rc => .command 0x01#8 rd.toBits ra.toBits 0 rc.toBits 0
  | .modmul rd ra rb rc => .command 0x02#8 rd.toBits ra.toBits rb.toBits rc.toBits 0
  | .modpow rd ra rb rc => .command 0x03#8 rd.toBits ra.toBits rb.toBits rc.toBits 0
  | .gcd rd ra rb => .command 0x04#8 rd.toBits ra.toBits rb.toBits 0 0
  | .modinv rd ra rc => .command 0x05#8 rd.toBits ra.toBits 0 rc.toBits 0
  | .isprime ra => .command 0x06#8 0 ra.toBits 0 0 0
  | .keysetup ra rb rc v => .command 0x10#8 0 ra.toBits rb.toBits rc.toBits (flagF v)
  | .sign rd ra => .command 0x11#8 rd.toBits ra.toBits 0 0 0
  | .verify ra rb => .command 0x12#8 0 ra.toBits rb.toBits 0 0
  | .keyrd rd sel => .command 0x13#8 rd.toBits 0 0 0 (flagF sel.toBool)

/-- The word of format C's fields, bit 31 on the left (R57; R12: in `{a, b}` a is the high part). -/
def FormatC.toWord (c : FormatC) : Word :=
  c.z4 ++ c.f ++ c.z3 ++ c.rc ++ c.z2 ++ c.rb ++ c.z1 ++ c.ra ++ c.z0 ++ c.rd ++ c.op

/-- The command word of an instruction (R64). -/
def encode (i : Instr) : Word := i.format.toWord

/-- An instruction is well formed when the fields it is encoded in pass R60 and R62. -/
def Instr.wellFormed (i : Instr) : Bool := i.format.wellFormed

end Sys2Proof
end

