-- ==== Sys2Proof/Machine/State.lean ====
section
/-! DEFINITION. The state of RSACORE (10_state.md R15), the reasons a step stops, what the other agents put in front of the machine
(00_scope.md R9), and the state after reset (70_reset_and_hazards.md R107). -/

namespace Sys2Proof.Machine

/-! ### The parts of the architectural state -/

/-- Eight things of one kind, one for each operand register (R6). -/
structure Bank (α : Type) where
  r0 : α
  r1 : α
  r2 : α
  r3 : α
  r4 : α
  r5 : α
  r6 : α
  r7 : α
deriving DecidableEq, Repr

/-- An operand register (R30): SIGN, VALID and the unsigned magnitude MAG of K bits. That MAG < 2^K is part of `State.Wf` (log entry 8). -/
structure OpReg where
  sign : Bool
  valid : Bool
  mag : Nat
deriving DecidableEq, Repr

/-- STATUS.ERRCODE (R90). The codes 11 to 15 are "never produced", so they have no constructor. -/
inductive ErrCode where
  | noError
  | invalidKey
  | modulusTooSmall
  | invalidSignatureFormat
  | noInverse
  | keyNotReady
  | keyLocked
  | unwrittenOperand
  | badOperand
  | overflow
  | illegalCommand
deriving DecidableEq, Repr

/-- STATUS.ERRSRC (R91): the operand slot an error concerns. -/
inductive Slot where
  | noSlot
  | ra
  | rb
  | rc
deriving DecidableEq, Repr

/-- The CLS KeyMaterial (R35): the modulus n, the private exponent d, the public exponent e. -/
structure KeyMaterial where
  n : Nat
  d : Nat
  e : Nat
deriving DecidableEq, Repr

/-- What a command's execution ends in (R13): `return ok(dst, res, key)` or `raise E(s)`. -/
inductive CmdOutcome where
  | ok (dst : Option (Reg × Nat)) (res : Bool) (key : Option KeyMaterial)
  | error (code : ErrCode) (src : Slot)
deriving DecidableEq, Repr

/-! ### The register aperture and the host's accesses -/

/-- The registers of the aperture, one constructor per row of R16's map. -/
inductive Loc where
  | id
  | param
  | ctrl
  | status
  | cmd
  | lastcmd
  | rmeta (r : Reg)
  | rdata (r : Reg) (i : Nat)
deriving DecidableEq, Repr

/-- The width of a host bus access (R43, R44). -/
inductive Width where
  | w8
  | w16
  | w32
  | w64
deriving DecidableEq, Repr

/-- One access the host makes at a byte address of its bus. A write's data is given as 32 bits: no other width is accepted (R43, R44). -/
inductive Access where
  | read (addr : Nat) (width : Width)
  | write (addr : Nat) (width : Width) (data : Word)
deriving DecidableEq, Repr

/-- What the host does next: an access, or the loop `WAIT` of R66 (`loop: x = LW STATUS; until x[0] = 0`). -/
inductive HostOp where
  | access (a : Access)
  | wait
deriving DecidableEq, Repr

/-- Who moves next: the three kinds of step of R9. -/
inductive Turn where
  | host
  | engine
  | reset
deriving DecidableEq, Repr

/-! ### Why a step stops -/

/-- The faults of a step. Both are the bus error of R44, which "the model treats as a fault of the host step that made it"; no command raises one. -/
inductive Fault where
  /-- Raised by a host access inside the aperture whose width is not 32 bits or whose offset is not a multiple of 4 (R44). SAFE: the spec asks for a fault. -/
  | busErrorWidthOrAlignment
  /-- Raised by an aligned 32-bit host access at an offset that maps no register (R45). SAFE: the spec asks for a fault. -/
  | busErrorUnmapped
deriving DecidableEq, Repr

/-- The refusals of a step. No arm of exec refuses: every command has its meaning. -/
inductive Refusal where
  /-- Kept for an arm of exec that has no meaning yet; raised by none. SAFE. -/
  | notModelled (mnemonic : String)
deriving DecidableEq, Repr

/-! ### The state -/

/-- The state of the machine. The first block of fields holds the parameters, which no step writes; the second the tuple of R15; the third what the
model itself needs (the host, the order of turns, the values read, the counter of draws). BUSY, ERR and IRQ are not stored: they are computed from
PENDING (R38), ERRCODE (R19) and IE, DONE (R34). -/
structure State where
  /-- K and BASE (R4, R7). -/
  params : Params
  /-- CTRL.IE (R18). -/
  ie : Bool
  /-- STATUS.DONE (R19). -/
  done : Bool
  /-- STATUS.RESULT (R19). -/
  result : Bool
  /-- STATUS.OVR (R19). -/
  ovr : Bool
  /-- STATUS.WBUSY (R19). -/
  wbusy : Bool
  /-- STATUS.ERRCODE (R19, R90). -/
  errcode : ErrCode
  /-- STATUS.ERRSRC (R19, R91). -/
  errsrc : Slot
  /-- LASTCMD (R24). -/
  lastcmd : Word
  /-- The operand registers R0 to R7 (R30). -/
  regs : Bank OpReg
  /-- KEY_N (R35). -/
  keyN : Nat
  /-- KEY_D (R35). -/
  keyD : Nat
  /-- KEY_E (R35). -/
  keyE : Nat
  /-- KEYV (R35). -/
  keyv : Bool
  /-- PENDING: none, or the command word being executed (R38). -/
  pending : Option Word
  /-- SNAP: for each register "unwritten" or its value, captured at issue (R38). -/
  snap : Bank (Option Int)
  /-- The model's own: what the host still has to do, in program order (log entry 3). -/
  host : List HostOp
  /-- The model's own: who moves next, in order (log entry 2). -/
  turns : List Turn
  /-- The model's own: "the values the host's reads returned" (R117), the latest first (log entry 3). -/
  reads : List Word
  /-- The model's own: how many free values have been drawn (log entry 5). -/
  draws : Nat
deriving DecidableEq, Repr

/-! ### Reset -/

/-- A magnitude of `n` words, each a free value of its own, least significant word first (R33, R47). -/
def drawMag (draw : Nat) : Nat → Nat
  | 0 => 0
  | n + 1 => drawMag draw n + (Config.freeWord (draw + n)).toNat * 2 ^ (32 * n)

/-- An operand register after reset: VALID = 0, SIGN = 0, MAG unspecified (R33). -/
def OpReg.afterReset (p : Params) (draw : Nat) : OpReg :=
  { sign := false, valid := false, mag := drawMag draw p.words }

/-- The table of R107, with every unspecified value drawn from the counter `draw`. SNAP is "irrelevant while PENDING = none": all unwritten (log entry 6). -/
def State.afterReset (p : Params) (draw : Nat) : State where
  params := p
  ie := false
  done := false
  result := false
  ovr := false
  wbusy := false
  errcode := .noError
  errsrc := .noSlot
  lastcmd := 0#32
  regs :=
    { r0 := .afterReset p draw
      r1 := .afterReset p (draw + p.words)
      r2 := .afterReset p (draw + 2 * p.words)
      r3 := .afterReset p (draw + 3 * p.words)
      r4 := .afterReset p (draw + 4 * p.words)
      r5 := .afterReset p (draw + 5 * p.words)
      r6 := .afterReset p (draw + 6 * p.words)
      r7 := .afterReset p (draw + 7 * p.words) }
  keyN := drawMag (draw + 8 * p.words) p.words
  keyD := drawMag (draw + 9 * p.words) p.words
  keyE := drawMag (draw + 10 * p.words) p.words
  keyv := false
  pending := none
  snap := ⟨none, none, none, none, none, none, none, none⟩
  host := []
  turns := []
  reads := []
  draws := draw + 11 * p.words

/-- The machine right after reset, in the reference configuration (R4, R107). -/
def State.reset : State := State.afterReset Config.reference 0

end Sys2Proof.Machine
end

