-- ==== Sys2Proof/Machine/Arith.lean ====
section
/-! DEFINITION. The exact integer functions of the command rules (00_scope.md R10, R11). Which algorithm the hardware uses "cannot be observed"
(40_numeric.md R75 to R77); each one here is exact, and Sys2Proof/Laws/Arith.lean proves it equal to the spec's definition (log entry 10). -/

namespace Sys2Proof.Machine

/-- `emod(a, m)` for m ≥ 1 (R10): the r with 0 ≤ r < m and m dividing a − r. -/
def emod (a m : Int) : Int := a % m

/-- `gcd(a, b)` of |a| and |b|, with gcd(0, 0) = 0 (R10). -/
def gcdAbs (a b : Int) : Nat := Nat.gcd a.natAbs b.natAbs

/-- b^x mod m by repeated squaring; `fuel` bounds the number of bits of x. -/
def powMod (b m : Nat) : Nat → Nat → Nat
  | 0, _ => 1 % m
  | fuel + 1, x =>
    if x = 0 then 1 % m
    else
      let half := powMod b m fuel (x / 2)
      let square := half * half % m
      if x % 2 = 1 then square * b % m else square

/-- `modpow(b, x, m)` for x ≥ 0 and m ≥ 1 (R11): `emod(emod(b, m)^x, m)`, with y^0 = 1. -/
def modpow (b x m : Int) : Int :=
  powMod (emod b m).toNat m.toNat (x.toNat.log2 + 1) x.toNat

/-- Euclid's algorithm on (r0, r1), carrying a Bézout coefficient for each: when r1 reaches 0, r0 is the gcd and t0 its coefficient. -/
def euclid : Nat → Nat → Int → Nat → Int → Int
  | 0, _, t0, _, _ => t0
  | fuel + 1, r0, t0, r1, t1 =>
    if r1 = 0 then t0 else euclid fuel r1 t1 (r0 % r1) (t0 - ((r0 / r1 : Nat) : Int) * t1)

/-- `modinv(v, m)` for m ≥ 1 and gcd(v, m) = 1 (R11): the x with 0 ≤ x < m and emod(v·x, m) = emod(1, m). -/
def modinv (v m : Int) : Int :=
  emod (euclid (m.toNat + 1) m.toNat 0 (emod v m).toNat 1) m

/-- No divisor of v among d, d + 1, … up to the square root of v. -/
def noDivisorFrom (v : Nat) : Nat → Nat → Bool
  | 0, _ => true
  | fuel + 1, d =>
    if v < d * d then true
    else if v % d = 0 then false
    else noDivisorFrom v fuel (d + 1)

/-- `prime(v)` (R10): v ≥ 2 and no divisor in 2..v−1, by trial division, the exact method R77 names. -/
def isPrime (v : Int) : Bool :=
  decide (2 ≤ v) && noDivisorFrom v.toNat v.toNat 2

end Sys2Proof.Machine
end

