-- ==== Sys2Proof/Machine/Flags.lean ====
section
/-! DEFINITION. STATUS, its fields and its write (10_state.md R19, R20), the error codes (60_exceptions.md R90, R91) and IRQ (R34). -/

namespace Sys2Proof.Machine

/-- The number of an error code (R90). -/
def ErrCode.code : ErrCode → BitVec 4
  | .noError => 0#4
  | .invalidKey => 1#4
  | .modulusTooSmall => 2#4
  | .invalidSignatureFormat => 3#4
  | .noInverse => 4#4
  | .keyNotReady => 5#4
  | .keyLocked => 6#4
  | .unwrittenOperand => 7#4
  | .badOperand => 8#4
  | .overflow => 9#4
  | .illegalCommand => 10#4

/-- The number of an error source (R91). -/
def Slot.code : Slot → BitVec 2
  | .noSlot => 0#2
  | .ra => 1#2
  | .rb => 2#2
  | .rc => 3#2

/-- STATUS.BUSY: "BUSY = 1 exactly when PENDING is not none" (R38). -/
def State.busy (s : State) : Bool := s.pending.isSome

/-- STATUS.ERR: "equals (ERRCODE ≠ 0); it is not stored separately" (R19). -/
def State.err (s : State) : Bool := s.errcode.code != 0#4

/-- The level-sensitive output (R34): IRQ = CTRL.IE AND STATUS.DONE. -/
def State.irq (s : State) : Bool := s.ie && s.done

/-- STATUS as software reads it, bit 31 on the left (R19). -/
def State.statusWord (s : State) : Word :=
  0#18 ++ s.errsrc.code ++ s.errcode.code ++ 0#1 ++ BitVec.ofBool s.wbusy ++ BitVec.ofBool s.ovr ++ BitVec.ofBool s.keyv
    ++ BitVec.ofBool s.result ++ BitVec.ofBool s.err ++ BitVec.ofBool s.done ++ BitVec.ofBool s.busy

/-- A write of w to STATUS (R20): DONE, OVR and WBUSY are cleared where w has a 1. -/
def State.writeStatus (w : Word) (s : State) : State :=
  { s with
    done := s.done && !w.getLsbD 1
    ovr := s.ovr && !w.getLsbD 5
    wbusy := s.wbusy && !w.getLsbD 6 }

/-- CTRL as software reads it (R18): IE in bit 0, the rest 0. -/
def State.ctrlWord (s : State) : Word := 0#31 ++ BitVec.ofBool s.ie

/-- A write of w to CTRL (R18): IE <- w[0]. -/
def State.writeCtrl (w : Word) (s : State) : State := { s with ie := w.getLsbD 0 }

end Sys2Proof.Machine
end

