-- ==== Sys2Proof/Machine/Operands.lean ====
section
/-! DEFINITION. The operand register file as a whole, the value of an operand register, the snapshot (10_state.md R30 to R32, R38), the words of a
magnitude (R27, R28; 20_memory.md R47), and the operand checks of 60_exceptions.md R94, stage 3. -/

namespace Sys2Proof.Machine

/-! ### Banks -/

/-- The entry of register r. -/
def Bank.get {α : Type} (b : Bank α) : Reg → α
  | .r0 => b.r0
  | .r1 => b.r1
  | .r2 => b.r2
  | .r3 => b.r3
  | .r4 => b.r4
  | .r5 => b.r5
  | .r6 => b.r6
  | .r7 => b.r7

/-- The bank with the entry of register r replaced. -/
def Bank.set {α : Type} (b : Bank α) (r : Reg) (x : α) : Bank α :=
  match r with
  | .r0 => { b with r0 := x }
  | .r1 => { b with r1 := x }
  | .r2 => { b with r2 := x }
  | .r3 => { b with r3 := x }
  | .r4 => { b with r4 := x }
  | .r5 => { b with r5 := x }
  | .r6 => { b with r6 := x }
  | .r7 => { b with r7 := x }

/-- A function applied to every entry. -/
def Bank.map {α β : Type} (f : α → β) (b : Bank α) : Bank β :=
  ⟨f b.r0, f b.r1, f b.r2, f b.r3, f b.r4, f b.r5, f b.r6, f b.r7⟩

/-! ### Operand registers -/

/-- The value of a register (R31): `SIGN = 1 ? −MAG : MAG`; negative zero is 0. -/
def OpReg.value (o : OpReg) : Int := if o.sign then -(o.mag : Int) else (o.mag : Int)

/-- What SNAP holds of a register (R92): its value if VALID = 1, else unwritten. -/
def OpReg.operand (o : OpReg) : Option Int := if o.valid then some o.value else none

/-- SNAP of the whole register file (R38, R92). -/
def snapshot (regs : Bank OpReg) : Bank (Option Int) := regs.map OpReg.operand

/-- The result write `R[r] <- v` (R32): MAG <- v, SIGN <- 0, VALID <- 1. -/
def OpReg.ofResult (v : Nat) : OpReg := { sign := false, valid := true, mag := v }

/-! ### Words of a magnitude -/

/-- MAG[32·i+31 : 32·i] (R27, R12). -/
def magWord (mag i : Nat) : Word := BitVec.ofNat 32 (mag / 2 ^ (32 * i))

/-- MAG with MAG[32·i+31 : 32·i] set to w and every other word left unchanged (R28). -/
def setMagWord (mag i : Nat) (w : Word) : Nat :=
  mag / 2 ^ (32 * (i + 1)) * 2 ^ (32 * (i + 1)) + w.toNat * 2 ^ (32 * i) + mag % 2 ^ (32 * i)

/-! ### Reading the operands of a command -/

/-- R94, stage 3: an unwritten source register gives UNWRITTEN_OPERAND with its slot; otherwise the command goes on with the value in SNAP. -/
def needOperand (snap : Bank (Option Int)) (slot : Slot) (r : Reg) (go : Int → CmdOutcome) : CmdOutcome :=
  match snap.get r with
  | some v => go v
  | none => .error .unwrittenOperand slot

/-- R94, stage 3, the one exception: VERIFY's RA slot gives INVALID_SIGNATURE_FORMAT(1). -/
def needSignature (snap : Bank (Option Int)) (r : Reg) (go : Int → CmdOutcome) : CmdOutcome :=
  match snap.get r with
  | some v => go v
  | none => .error .invalidSignatureFormat .ra

/-- R94, stage 2, for SIGN, VERIFY and KEYRD: KEYV = 0 gives KEY_NOT_READY(0). -/
def needKey (keyv : Bool) (go : CmdOutcome) : CmdOutcome :=
  if keyv then go else .error .keyNotReady .noSlot

/-- R94, stage 2, for KEYSETUP: KEYV = 1 gives KEY_LOCKED(0). -/
def needNoKey (keyv : Bool) (go : CmdOutcome) : CmdOutcome :=
  if keyv then .error .keyLocked .noSlot else go

end Sys2Proof.Machine
end

