-- ==== Sys2Proof/Machine/Ops.lean ====
section
/-! DEFINITION. The operations that change state as a whole: issuing a command (60_exceptions.md R92), completing it with a result or with an error
(R93; this block's form of taking an exception, R89, R97), the host's return from a completion (R97), and the reset event (70_reset_and_hazards.md R106 to R108). -/

namespace Sys2Proof.Machine

/-! ### Issue -/

/-- R92, BUSY = 0: the word becomes PENDING and LASTCMD, the operand registers are captured, and the status of the last command is cleared. -/
def State.accept (w : Word) (s : State) : State :=
  { s with
    pending := some w
    lastcmd := w
    snap := snapshot s.regs
    done := false
    result := false
    errcode := .noError
    errsrc := .noSlot }

/-- R92: a host write of w to CMD; while BUSY = 1 the word is dropped and OVR is set. -/
def State.issue (w : Word) (s : State) : State :=
  if s.busy then { s with ovr := true } else s.accept w

/-! ### Completion -/

/-- R93: a result is written to the destination register, if there is one (R32). -/
def State.writeDst (dst : Option (Reg × Nat)) (s : State) : State :=
  match dst with
  | none => s
  | some (rd, v) => { s with regs := s.regs.set rd (.ofResult v) }

/-- R93: `KEY_N <- n ; KEY_D <- d ; KEY_E <- e ; KEYV <- 1`, if the command gives new key state. -/
def State.writeKey (key : Option KeyMaterial) (s : State) : State :=
  match key with
  | none => s
  | some k => { s with keyN := k.n, keyD := k.d, keyE := k.e, keyv := true }

/-- The status every completion writes (R93): RESULT, ERRCODE, ERRSRC, then PENDING <- none (BUSY <- 0) and DONE <- 1. -/
def State.finish (res : Bool) (code : ErrCode) (src : Slot) (s : State) : State :=
  { s with result := res, errcode := code, errsrc := src, pending := none, done := true }

/-- A successful completion (R93): the results become visible all at once. -/
def State.completeOk (dst : Option (Reg × Nat)) (res : Bool) (key : Option KeyMaterial) (s : State) : State :=
  ((s.writeDst dst).writeKey key).finish res .noError .noSlot

/-- A failed completion (R93, R95): "nothing else is written". This is RSACORE's whole error entry (R89, R97): STATUS saves the code and its source,
LASTCMD already holds the command word, and no control transfers. -/
def State.raise (code : ErrCode) (src : Slot) (s : State) : State :=
  s.finish false code src

/-- The completion step with a given outcome (R93). -/
def State.complete (o : CmdOutcome) (s : State) : State :=
  match o with
  | .ok dst res key => s.completeOk dst res key
  | .error code src => s.raise code src

/-- A command's answer to the step: the completion always gives a next state. -/
def finishCommand (o : CmdOutcome) (s : State) : Host.Outcome State Fault Refusal :=
  .next (s.complete o)

/-- The completion of a word that decodes to no command (R94, stage 1; R62). -/
def completeIllegal (s : State) : Host.Outcome State Fault Refusal :=
  finishCommand (.error .illegalCommand .noSlot) s

/-- The host's "return" from a completion (R97): it writes 1 to DONE; nothing else needs restoring. -/
def State.acknowledge (s : State) : State := s.writeStatus 0x2#32

/-! ### Reset -/

/-- The reset event (R106 to R108): every piece of state in the value of R107, in one step, whether a command is pending or not. The host, the order of
turns and the values the host has read are not the block's, and stay (log entry 12). -/
def State.resetEvent (s : State) : State :=
  { State.afterReset s.params s.draws with
    host := s.host
    turns := s.turns
    reads := s.reads }

/-! ### Whose turn it is -/

/-- The next mover (R9): the head of `turns`. When `turns` is used up the engine completes a pending command, else the host goes on: so a completion that
stays enabled is taken (R116; log entry 2). -/
def State.takeTurn (s : State) : Turn × State :=
  match s.turns with
  | t :: ts => (t, { s with turns := ts })
  | [] => (if s.busy then .engine else .host, s)

end Sys2Proof.Machine
end

