-- ==== Sys2Proof/Machine/Numeric.lean ====
section
/-! DEFINITION. The numeric command family (40_numeric.md R67 to R74). The first function of each command is stage 4 of 60_exceptions.md R94, on operand
values; `exec…` reads the operands from SNAP (stage 3) and completes the command (R93). -/

namespace Sys2Proof.Machine

/-- NOP (R68): `return ok(dst = none, res = 0, key = none)`. -/
def execNop (s : State) : Host.Outcome State Fault Refusal :=
  finishCommand (.ok none false none) s

/-- R69. -/
def modredCommand (rd : Reg) (a m : Int) : CmdOutcome :=
  if m ≤ 0 then .error .badOperand .rc
  else .ok (some (rd, (emod a m).toNat)) false none

/-- MODRED rd, ra, rc (R69). -/
def execModred (rd ra rc : Reg) (s : State) : Host.Outcome State Fault Refusal :=
  finishCommand
    (needOperand s.snap .ra ra fun a =>
      needOperand s.snap .rc rc fun m =>
        modredCommand rd a m) s

/-- R70: the product is exact. -/
def modmulCommand (rd : Reg) (a b m : Int) : CmdOutcome :=
  if m ≤ 0 then .error .badOperand .rc
  else .ok (some (rd, (emod (a * b) m).toNat)) false none

/-- MODMUL rd, ra, rb, rc (R70). -/
def execModmul (rd ra rb rc : Reg) (s : State) : Host.Outcome State Fault Refusal :=
  finishCommand
    (needOperand s.snap .ra ra fun a =>
      needOperand s.snap .rb rb fun b =>
        needOperand s.snap .rc rc fun m =>
          modmulCommand rd a b m) s

/-- R71: the exponent is checked before the modulus. -/
def modpowCommand (rd : Reg) (b x m : Int) : CmdOutcome :=
  if x < 0 then .error .badOperand .rb
  else if m ≤ 0 then .error .badOperand .rc
  else .ok (some (rd, (modpow b x m).toNat)) false none

/-- MODPOW rd, ra, rb, rc (R71). -/
def execModpow (rd ra rb rc : Reg) (s : State) : Host.Outcome State Fault Refusal :=
  finishCommand
    (needOperand s.snap .ra ra fun b =>
      needOperand s.snap .rb rb fun x =>
        needOperand s.snap .rc rc fun m =>
          modpowCommand rd b x m) s

/-- R72. -/
def gcdCommand (rd : Reg) (a b : Int) : CmdOutcome :=
  .ok (some (rd, gcdAbs a b)) false none

/-- GCD rd, ra, rb (R72). -/
def execGcd (rd ra rb : Reg) (s : State) : Host.Outcome State Fault Refusal :=
  finishCommand
    (needOperand s.snap .ra ra fun a =>
      needOperand s.snap .rb rb fun b =>
        gcdCommand rd a b) s

/-- R73. -/
def modinvCommand (rd : Reg) (v m : Int) : CmdOutcome :=
  if m ≤ 0 then .error .badOperand .rc
  else if gcdAbs v m ≠ 1 then .error .noInverse .ra
  else .ok (some (rd, (modinv v m).toNat)) false none

/-- MODINV rd, ra, rc (R73). -/
def execModinv (rd ra rc : Reg) (s : State) : Host.Outcome State Fault Refusal :=
  finishCommand
    (needOperand s.snap .ra ra fun v =>
      needOperand s.snap .rc rc fun m =>
        modinvCommand rd v m) s

/-- R74. -/
def isprimeCommand (v : Int) : CmdOutcome :=
  .ok none (isPrime v) none

/-- ISPRIME ra (R74). -/
def execIsprime (ra : Reg) (s : State) : Host.Outcome State Fault Refusal :=
  finishCommand (needOperand s.snap .ra ra fun v => isprimeCommand v) s

end Sys2Proof.Machine
end

