-- ==== Sys2Proof/Machine/Rsa.lean ====
section
/-! DEFINITION. The RSA command family (41_rsa.md R79 to R84). -/

namespace Sys2Proof.Machine

/-! ### KEYSETUP -/

/-- `phi = (p - 1) * (q - 1)` (R81). -/
def totient (p q : Int) : Int := (p - 1) * (q - 1)

/-- CLS step 1, done for V = 1 only (R81): the slot of the first check that fails. -/
def keyValidation (p q d : Int) : Option Slot :=
  if isPrime p = false then some .ra
  else if isPrime q = false then some .rb
  else if ¬(2 ≤ d ∧ d ≤ totient p q - 1) then some .rc
  else if gcdAbs d (totient p q) ≠ 1 then some .rc
  else none

/-- The structural checks and CLS steps 2, 3 and 5, done for both values of V (R81). -/
def keyConstruct (k : Nat) (p q d : Int) : CmdOutcome :=
  if p < 2 then .error .badOperand .ra
  else if q < 2 then .error .badOperand .rb
  else if d < 0 then .error .badOperand .rc
  else if 2 ^ k ≤ (p * q).toNat then .error .overflow .noSlot
  else if gcdAbs d (totient p q) ≠ 1 then .error .noInverse .rc
  else .ok none false (some { n := (p * q).toNat, d := d.toNat, e := (modinv d (totient p q)).toNat })

/-- R81, stage 4. -/
def keysetupCommand (k : Nat) (v : Bool) (p q d : Int) : CmdOutcome :=
  match (if v then keyValidation p q d else none) with
  | some slot => .error .invalidKey slot
  | none => keyConstruct k p q d

/-- KEYSETUP ra, rb, rc, v (R81). -/
def execKeysetup (ra rb rc : Reg) (v : Bool) (s : State) : Host.Outcome State Fault Refusal :=
  finishCommand
    (needNoKey s.keyv
      (needOperand s.snap .ra ra fun p =>
        needOperand s.snap .rb rb fun q =>
          needOperand s.snap .rc rc fun d =>
            keysetupCommand s.params.k v p q d)) s

/-! ### The hash-image gate, SIGN and VERIFY -/

/-- `HashImage(value, exponent, slot)` (R80), the gate SIGN and VERIFY share; `go` takes the hash image. -/
def hashImage (n : Nat) (value : Int) (exponent : Nat) (slot : Slot) (go : Nat → CmdOutcome) : CmdOutcome :=
  if n ≤ value.natAbs then .error .modulusTooSmall slot
  else go (modpow value exponent n).toNat

/-- R82, stage 4. -/
def signCommand (rd : Reg) (n d : Nat) (h : Int) : CmdOutcome :=
  hashImage n h d .ra fun sig => .ok (some (rd, sig)) false none

/-- SIGN rd, ra (R82). -/
def execSign (rd ra : Reg) (s : State) : Host.Outcome State Fault Refusal :=
  finishCommand
    (needKey s.keyv
      (needOperand s.snap .ra ra fun h =>
        signCommand rd s.keyN s.keyD h)) s

/-- R83, stage 4: h is not range-checked, and a mismatch is RESULT = 0. -/
def verifyCommand (n e : Nat) (sig h : Int) : CmdOutcome :=
  hashImage n sig e .ra fun hp => .ok none (decide (h = (hp : Int))) none

/-- VERIFY ra, rb (R83). -/
def execVerify (ra rb : Reg) (s : State) : Host.Outcome State Fault Refusal :=
  finishCommand
    (needKey s.keyv
      (needSignature s.snap ra fun sig =>
        needOperand s.snap .rb rb fun h =>
          verifyCommand s.keyN s.keyE sig h)) s

/-! ### KEYRD -/

/-- The key register SEL selects (R59, R84). -/
def State.publicKey (sel : KeySel) (s : State) : Nat :=
  match sel with
  | .n => s.keyN
  | .e => s.keyE

/-- KEYRD rd, N or KEYRD rd, E (R84). -/
def execKeyrd (rd : Reg) (sel : KeySel) (s : State) : Host.Outcome State Fault Refusal :=
  finishCommand (needKey s.keyv (.ok (some (rd, s.publicKey sel)) false none)) s

end Sys2Proof.Machine
end

