-- ==== Sys2Proof/Machine/Dispatch.lean ====
section
/-! DEFINITION. One arm per command: `exec i s` is the completion step (60_exceptions.md R93) of a pending command that decodes to i. -/

namespace Sys2Proof.Machine

def exec (i : Instr) (s : State) : Host.Outcome State Fault Refusal :=
  match i with
  | .nop => Sys2Proof.Machine.execNop s
  | .modred rd ra rc => Sys2Proof.Machine.execModred rd ra rc s
  | .modmul rd ra rb rc => Sys2Proof.Machine.execModmul rd ra rb rc s
  | .modpow rd ra rb rc => Sys2Proof.Machine.execModpow rd ra rb rc s
  | .gcd rd ra rb => Sys2Proof.Machine.execGcd rd ra rb s
  | .modinv rd ra rc => Sys2Proof.Machine.execModinv rd ra rc s
  | .isprime ra => Sys2Proof.Machine.execIsprime ra s
  | .keysetup ra rb rc v => Sys2Proof.Machine.execKeysetup ra rb rc v s
  | .sign rd ra => Sys2Proof.Machine.execSign rd ra s
  | .verify ra rb => Sys2Proof.Machine.execVerify ra rb s
  | .keyrd rd sel => Sys2Proof.Machine.execKeyrd rd sel s

end Sys2Proof.Machine
end

