-- ==== Sys2Proof/Machine/Bus.lean ====
section
/-! DEFINITION. The register aperture (10_state.md R16 to R29) and the host's bus accesses (20_memory.md R41 to R50). -/

namespace Sys2Proof.Machine

/-! ### Addresses -/

/-- The offset of a register in the aperture (R16). -/
def Loc.offset : Loc → Nat
  | .id => 0x000
  | .param => 0x004
  | .ctrl => 0x008
  | .status => 0x00C
  | .cmd => 0x010
  | .lastcmd => 0x014
  | .rmeta r => 0x020 + 4 * r.toBits.toNat
  | .rdata r i => 0x400 + 0x200 * r.toBits.toNat + 4 * i

/-- The register of index n, for n < 8 (R58). -/
def regOfIndex (n : Nat) : Reg := Reg.ofBits (BitVec.ofNat 3 n)

/-- The register at a 4-byte-aligned offset, if R16 maps one there (R45). -/
def locate (p : Params) (off : Nat) : Option Loc :=
  if off = 0x000 then some .id
  else if off = 0x004 then some .param
  else if off = 0x008 then some .ctrl
  else if off = 0x00C then some .status
  else if off = 0x010 then some .cmd
  else if off = 0x014 then some .lastcmd
  else if 0x020 ≤ off ∧ off < 0x040 then some (.rmeta (regOfIndex ((off - 0x020) / 4)))
  else if 0x400 ≤ off ∧ off < 0x1400 then
    if (off - 0x400) % 0x200 / 4 < p.words then
      some (.rdata (regOfIndex ((off - 0x400) / 0x200)) ((off - 0x400) % 0x200 / 4))
    else none
  else none

/-- R42: an address inside the aperture is decoded at its offset from BASE; any other never reaches RSACORE. -/
def apertureOffset (p : Params) (addr : Nat) : Option Nat :=
  if p.base ≤ addr ∧ addr < p.base + 0x2000 then some (addr - p.base) else none

/-- The operand window: RMETA and RDATA (R29). -/
def Loc.isWindow : Loc → Bool
  | .rmeta _ => true
  | .rdata _ _ => true
  | .id => false
  | .param => false
  | .ctrl => false
  | .status => false
  | .cmd => false
  | .lastcmd => false

/-! ### Reads -/

/-- PARAM (R23): K in bits 15:0, NREG in bits 19:16, the rest 0. -/
def paramWord (p : Params) : Word := 0#12 ++ Config.nreg ++ BitVec.ofNat 16 p.k

/-- R46: the byte at offset off + j, j = 0 to 3, of the word at off. Only word accesses are accepted (R43), so no access observes it. -/
def wordByte (w : Word) (j : Nat) : Byte := w.extractLsb' (8 * j) 8

/-- RMETA of a register (R25): SIGN in bit 0, VALID in bit 1, the rest 0. -/
def OpReg.metaWord (o : OpReg) : Word := 0#30 ++ BitVec.ofBool o.valid ++ BitVec.ofBool o.sign

/-- What the state holds at a register of the aperture (R18, R19, R21 to R25, R27). -/
def State.locWord (l : Loc) (s : State) : Word :=
  match l with
  | .id => Config.id
  | .param => paramWord s.params
  | .ctrl => s.ctrlWord
  | .status => s.statusWord
  | .cmd => 0#32
  | .lastcmd => s.lastcmd
  | .rmeta r => (s.regs.get r).metaWord
  | .rdata r i => magWord (s.regs.get r).mag i

/-- A read that returns "an unspecified 32-bit value, a fresh draw for each read" (R29): the operand window while BUSY = 1. -/
def State.drawsOn (l : Loc) (s : State) : Bool := s.busy && l.isWindow

/-- The value a host read returns (R29, R43). -/
def State.readValue (l : Loc) (s : State) : Word :=
  if s.drawsOn l then Config.freeWord s.draws else s.locWord l

/-- A host read: the host has the value; the block's own state does not change (R49). A draw uses up one free value. -/
def State.busRead (l : Loc) (s : State) : State :=
  { s with
    reads := s.readValue l :: s.reads
    draws := if s.drawsOn l then s.draws + 1 else s.draws }

/-! ### Writes -/

/-- A write of w to RMETA (R26): ZERO first, then SIGN, then VALID. -/
def OpReg.writeMeta (w : Word) (o : OpReg) : OpReg :=
  { sign := w.getLsbD 0
    valid := w.getLsbD 1
    mag := if w.getLsbD 2 then 0 else o.mag }

/-- A write of w to word i of RDATA (R28). -/
def OpReg.writeData (i : Nat) (w : Word) (o : OpReg) : OpReg :=
  { o with mag := setMagWord o.mag i w }

/-- A write in the operand window (R26, R28); while BUSY = 1 it is dropped and sets WBUSY (R29). -/
def State.writeWindow (r : Reg) (f : OpReg → OpReg) (s : State) : State :=
  if s.busy then { s with wbusy := true } else { s with regs := s.regs.set r (f (s.regs.get r)) }

/-- A host write of w to a register of the aperture (R17, R18, R20, R21, R26, R28, R50). -/
def State.busWrite (l : Loc) (w : Word) (s : State) : State :=
  match l with
  | .id => s
  | .param => s
  | .ctrl => s.writeCtrl w
  | .status => s.writeStatus w
  | .cmd => s.issue w
  | .lastcmd => s
  | .rmeta r => s.writeWindow r (OpReg.writeMeta w)
  | .rdata r i => s.writeWindow r (OpReg.writeData i w)

/-! ### Accesses -/

/-- The byte address of an access. -/
def Access.addr : Access → Nat
  | .read a _ => a
  | .write a _ _ => a

/-- The width of an access. -/
def Access.width : Access → Width
  | .read _ w => w
  | .write _ w _ => w

/-- An accepted access at its register (R43): one indivisible step (R48). -/
def State.accessAt (a : Access) (l : Loc) (s : State) : State :=
  match a with
  | .read _ _ => s.busRead l
  | .write _ _ w => s.busWrite l w

/-- A host bus access (R41 to R45). Outside the aperture it never reaches the block (log entry 9). -/
def busAccess (a : Access) (s : State) : Host.Outcome State Fault Refusal :=
  match apertureOffset s.params a.addr with
  | none => .next s
  | some off =>
    if a.width ≠ .w32 ∨ off % 4 ≠ 0 then .fault .busErrorWidthOrAlignment
    else
      match locate s.params off with
      | none => .fault .busErrorUnmapped
      | some l => .next (s.accessAt a l)

end Sys2Proof.Machine
end

