-- ==== Sys2Proof/Machine/HostProgram.lean ====
section
/-! DEFINITION. The host's side of the bus: its turn (00_scope.md R9; 20_memory.md R51), the assembler's command syntax, the host program syntax and the
pseudo-instructions with their expansions (30_encoding.md R64 to R66). -/

namespace Sys2Proof.Machine

/-! ### The host's turn -/

/-- `LW <reg>` (R65). -/
def lw (p : Params) (l : Loc) : Access := .read (p.base + l.offset) .w32

/-- `SW <reg>, <value>` (R65). -/
def sw (p : Params) (l : Loc) (v : Word) : Access := .write (p.base + l.offset) .w32 v

/-- One access of the host, in its program's order (R51, R52). A host that has nothing to do leaves everything as it is. `WAIT` reads STATUS and stays
until bit 0, BUSY, is 0 (R66). -/
def hostTurn (s : State) : Host.Outcome State Fault Refusal :=
  match s.host with
  | [] => .next s
  | .access a :: rest => busAccess a { s with host := rest }
  | .wait :: rest =>
    busAccess (lw s.params .status) { s with host := if s.statusWord.getLsbD 0 then s.host else rest }

/-! ### Assembler syntax -/

/-- A command as the assembler writes it (R64): one of the eleven, or `.cmd` with a word, "legal or not". -/
inductive AsmCommand where
  | instr (i : Instr)
  | raw (w : Word)
deriving DecidableEq, Repr

/-- The word of a command (R64). -/
def AsmCommand.word : AsmCommand → Word
  | .instr i => encode i
  | .raw w => w

/-- The name of a register (R64). -/
def regName : Reg → String
  | .r0 => "r0"
  | .r1 => "r1"
  | .r2 => "r2"
  | .r3 => "r3"
  | .r4 => "r4"
  | .r5 => "r5"
  | .r6 => "r6"
  | .r7 => "r7"

/-- A mnemonic and its comma-separated operands (R64). -/
def asmLine (mnemonic : String) (operands : List String) : String :=
  match operands with
  | [] => mnemonic
  | _ => mnemonic ++ " " ++ ", ".intercalate operands

/-- The assembler text of a command (R64's table). -/
def asmText : Instr → String
  | .nop => asmLine "NOP" []
  | .modred rd ra rc => asmLine "MODRED" [regName rd, regName ra, regName rc]
  | .modmul rd ra rb rc => asmLine "MODMUL" [regName rd, regName ra, regName rb, regName rc]
  | .modpow rd ra rb rc => asmLine "MODPOW" [regName rd, regName ra, regName rb, regName rc]
  | .gcd rd ra rb => asmLine "GCD" [regName rd, regName ra, regName rb]
  | .modinv rd ra rc => asmLine "MODINV" [regName rd, regName ra, regName rc]
  | .isprime ra => asmLine "ISPRIME" [regName ra]
  | .keysetup ra rb rc v => asmLine "KEYSETUP" [regName ra, regName rb, regName rc, if v then "1" else "0"]
  | .sign rd ra => asmLine "SIGN" [regName rd, regName ra]
  | .verify ra rb => asmLine "VERIFY" [regName ra, regName rb]
  | .keyrd rd .n => asmLine "KEYRD" [regName rd, "N"]
  | .keyrd rd .e => asmLine "KEYRD" [regName rd, "E"]

/-- The assembler text of any command line, `.cmd 0xHHHHHHHH` among them (R64). -/
def AsmCommand.text : AsmCommand → String
  | .instr i => asmText i
  | .raw w => asmLine ".cmd" ["0x" ++ w.toHex]

/-! ### Host programs -/

/-- One line of a host program (R65, R66). -/
inductive HostLine where
  /-- `SW <reg>, <value>`. -/
  | sw (l : Loc) (v : Word)
  /-- `LW <reg>`. -/
  | lw (l : Loc)
  /-- `LI rN, v`. -/
  | li (r : Reg) (v : Int)
  /-- `UNSET rN`. -/
  | unset (r : Reg)
  /-- `ISSUE <cmd>`. -/
  | issue (c : AsmCommand)
  /-- `WAIT`. -/
  | wait
  /-- A command written alone on a line: `ISSUE <cmd>` followed by `WAIT`. -/
  | command (c : AsmCommand)
  /-- `ACK`. -/
  | ack
  /-- `RDREG rN`. -/
  | rdreg (r : Reg)
deriving DecidableEq, Repr

/-- W(v): the number of 32-bit words needed for |v|, W(0) = 0 (R66). -/
def wordsNeeded (v : Int) : Nat :=
  if v.natAbs = 0 then 0 else (v.natAbs.log2 + 1 + 31) / 32

/-- `LI`'s RMETA word (R66): `0x6 OR (v < 0 ? 1 : 0)`. -/
def liMeta (v : Int) : Word := 0x6#32 ||| (if v < 0 then 1#32 else 0#32)

/-- The expansion of a line (R65, R66). -/
def HostLine.expand (p : Params) : HostLine → List HostOp
  | .sw l v => [.access (Machine.sw p l v)]
  | .lw l => [.access (Machine.lw p l)]
  | .li r v =>
    .access (Machine.sw p (.rmeta r) (liMeta v))
      :: (List.range (wordsNeeded v)).map fun i => .access (Machine.sw p (.rdata r i) (magWord v.natAbs i))
  | .unset r => [.access (Machine.sw p (.rmeta r) 0x0#32)]
  | .issue c => [.access (Machine.sw p .cmd c.word)]
  | .wait => [.wait]
  | .command c => [.access (Machine.sw p .cmd c.word), .wait]
  | .ack => [.access (Machine.sw p .status 0x00000062#32)]
  | .rdreg r =>
    .access (Machine.lw p (.rmeta r)) :: (List.range p.words).map fun i => .access (Machine.lw p (.rdata r i))

/-- The accesses of a host program, line after line. -/
def assemble (p : Params) (lines : List HostLine) : List HostOp :=
  lines.flatMap (HostLine.expand p)

end Sys2Proof.Machine
end

