-- ==== Sys2Proof/Machine/Step.lean ====
section
/-! DEFINITION. One step of the machine: a host bus access, the engine's completion step or the reset event (00_scope.md R9). -/

namespace Sys2Proof.Machine

/-- The completion step (60_exceptions.md R93): enabled exactly when a command is pending. The word is decoded at completion (R94, stage 1). -/
def engineTurn (s : State) : Host.Outcome State Fault Refusal :=
  match s.pending with
  | none => .next s
  | some w =>
    match decode w with
    | .cmd i => exec i s
    | .illegal _ => completeIllegal s

/-- A turn of one of the three kinds (R9). -/
def runTurn (t : Turn) (s : State) : Host.Outcome State Fault Refusal :=
  match t with
  | .host => hostTurn s
  | .engine => engineTurn s
  | .reset => .next s.resetEvent

/-- One step: whoever's turn it is moves. -/
def step (s : State) : Host.Outcome State Fault Refusal :=
  runTurn s.takeTurn.1 s.takeTurn.2

/-- The state in which the word has just been issued (R92) and the engine moves next, so that the next step completes that command (log entry 13). -/
def State.withFetchWord (s : State) (nbits w : Nat) : State :=
  { s.accept (BitVec.ofNat 32 (w % 2 ^ nbits)) with turns := .engine :: s.turns }

end Sys2Proof.Machine
end

