-- ==== Sys2Proof/Safety.lean ====
section
/-! DEFINITION. The terms the statements use: the spec's arithmetic words as predicates (00_scope.md R10, R11), the two shapes of a completed state
(60_exceptions.md R93), what a command reads and writes (R94), the invariants of the machine, and what a legal host access is (20_memory.md R43 to R45). -/

namespace Sys2Proof.Machine

/-! ### The words of R10 and R11 -/

/-- r is `emod(a, m)`: "the unique r with 0 ≤ r < m and m dividing a − r" (R10). -/
abbrev IsEmod (a m r : Int) : Prop := 0 ≤ r ∧ r < m ∧ m ∣ a - r

/-- r is `modpow(b, x, m)` = `emod(emod(b, m)^x, m)`, with y^0 = 1 (R11). -/
def IsModpow (b : Int) (x : Nat) (m r : Int) : Prop := ∃ y, IsEmod b m y ∧ IsEmod (y ^ x) m r

/-- x is `modinv(v, m)`: 0 ≤ x < m and emod(v·x, m) = emod(1, m) (R11). -/
abbrev IsModinv (v m x : Int) : Prop := 0 ≤ x ∧ x < m ∧ m ∣ v * x - 1

/-- g is `gcd(a, b)` (R10): the greatest common divisor in the order of divisibility, 0 for (0, 0). -/
def IsGcd (a b g : Int) : Prop := 0 ≤ g ∧ g ∣ a ∧ g ∣ b ∧ ∀ c, c ∣ a → c ∣ b → c ∣ g

/-- `prime(v)`: v ≥ 2 and no divisor in 2..v−1 (R10). -/
def IsPrimeValue (v : Int) : Prop := 2 ≤ v ∧ ∀ c, 2 ≤ c → c < v → ¬c ∣ v

/-! ### Completed states (R93) -/

/-- s after a successful completion that leaves the operand registers at `regs` and RESULT at `res`; everything else is as in s. -/
def State.succeeded (regs : Bank OpReg) (res : Bool) (s : State) : State :=
  { s with regs := regs, result := res, errcode := .noError, errsrc := .noSlot, pending := none, done := true }

/-- s after a failed completion with the given code and source; everything else is as in s. -/
def State.failed (code : ErrCode) (src : Slot) (s : State) : State :=
  { s with result := false, errcode := code, errsrc := src, pending := none, done := true }

/-- The operand registers of s with the result v in rd (R32). -/
def State.regsWith (rd : Reg) (v : Nat) (s : State) : Bank OpReg :=
  s.regs.set rd { sign := false, valid := true, mag := v }

end Sys2Proof.Machine

namespace Sys2Proof

open Machine

/-! ### What a command uses (R94) -/

/-- The source slots, in the order of R94, stage 3. -/
def Instr.sources : Instr → List (Slot × Reg)
  | .nop => []
  | .modred _ ra rc => [(.ra, ra), (.rc, rc)]
  | .modmul _ ra rb rc => [(.ra, ra), (.rb, rb), (.rc, rc)]
  | .modpow _ ra rb rc => [(.ra, ra), (.rb, rb), (.rc, rc)]
  | .gcd _ ra rb => [(.ra, ra), (.rb, rb)]
  | .modinv _ ra rc => [(.ra, ra), (.rc, rc)]
  | .isprime ra => [(.ra, ra)]
  | .keysetup ra rb rc _ => [(.ra, ra), (.rb, rb), (.rc, rc)]
  | .sign _ ra => [(.ra, ra)]
  | .verify ra rb => [(.ra, ra), (.rb, rb)]
  | .keyrd _ _ => []

/-- The destination register, if the command has one (R61). -/
def Instr.dst? : Instr → Option Reg
  | .nop => none
  | .modred rd _ _ => some rd
  | .modmul rd _ _ _ => some rd
  | .modpow rd _ _ _ => some rd
  | .gcd rd _ _ => some rd
  | .modinv rd _ _ => some rd
  | .isprime _ => none
  | .keysetup _ _ _ _ => none
  | .sign rd _ => some rd
  | .verify _ _ => none
  | .keyrd rd _ => some rd

/-- KEYSETUP is the one command that writes key state (R36). -/
def Instr.isKeysetup : Instr → Bool
  | .keysetup _ _ _ _ => true
  | .nop => false
  | .modred _ _ _ => false
  | .modmul _ _ _ _ => false
  | .modpow _ _ _ _ => false
  | .gcd _ _ _ => false
  | .modinv _ _ _ => false
  | .isprime _ => false
  | .sign _ _ => false
  | .verify _ _ => false
  | .keyrd _ _ => false

/-- SIGN is the one command that uses KEY_D (R80). -/
def Instr.isSign : Instr → Bool
  | .sign _ _ => true
  | .nop => false
  | .modred _ _ _ => false
  | .modmul _ _ _ _ => false
  | .modpow _ _ _ _ => false
  | .gcd _ _ _ => false
  | .modinv _ _ _ => false
  | .isprime _ => false
  | .keysetup _ _ _ _ => false
  | .verify _ _ => false
  | .keyrd _ _ => false

/-- R94, stage 2: the error of the key-state check, if it fails. -/
def Instr.keyStage (keyv : Bool) : Instr → Option ErrCode
  | .keysetup _ _ _ _ => if keyv then some .keyLocked else none
  | .sign _ _ => if keyv then none else some .keyNotReady
  | .verify _ _ => if keyv then none else some .keyNotReady
  | .keyrd _ _ => if keyv then none else some .keyNotReady
  | .nop => none
  | .modred _ _ _ => none
  | .modmul _ _ _ _ => none
  | .modpow _ _ _ _ => none
  | .gcd _ _ _ => none
  | .modinv _ _ _ => none
  | .isprime _ => none

/-- R94, stage 3: the error an unwritten slot gives. -/
def Instr.unwrittenError (slot : Slot) : Instr → ErrCode
  | .verify _ _ => if slot = .ra then .invalidSignatureFormat else .unwrittenOperand
  | .keysetup _ _ _ _ => .unwrittenOperand
  | .sign _ _ => .unwrittenOperand
  | .keyrd _ _ => .unwrittenOperand
  | .nop => .unwrittenOperand
  | .modred _ _ _ => .unwrittenOperand
  | .modmul _ _ _ _ => .unwrittenOperand
  | .modpow _ _ _ _ => .unwrittenOperand
  | .gcd _ _ _ => .unwrittenOperand
  | .modinv _ _ _ => .unwrittenOperand
  | .isprime _ => .unwrittenOperand

end Sys2Proof

namespace Sys2Proof.Machine

/-! ### Invariants -/

/-- Every magnitude and every key register fits its K bits (R30, R35), and the parameters are those R4 and R7 allow. -/
abbrev State.Wf (s : State) : Prop :=
  s.params.wf = true ∧ (∀ r : Reg, (s.regs.get r).mag < 2 ^ s.params.k)
    ∧ s.keyN < 2 ^ s.params.k ∧ s.keyD < 2 ^ s.params.k ∧ s.keyE < 2 ^ s.params.k

/-- "SNAP always equals the operand registers during a pending command" (R38). -/
abbrev State.SnapWf (s : State) : Prop :=
  s.pending ≠ none → ∀ r : Reg, s.snap.get r = (s.regs.get r).operand

/-- "While BUSY = 1, STATUS.RESULT, ERRCODE and ERRSRC read 0" (R112); DONE is 0 from issue to completion (R92, R93); ERRSRC is 0 for the codes R91 lists. -/
abbrev State.StatusWf (s : State) : Prop :=
  (s.pending ≠ none → s.done = false ∧ s.result = false ∧ s.errcode = .noError ∧ s.errsrc = .noSlot)
    ∧ (s.errcode ∈ [ErrCode.noError, .keyNotReady, .keyLocked, .overflow, .illegalCommand] → s.errsrc = .noSlot)

/-- The invariant of the block. -/
abbrev State.Inv (s : State) : Prop := s.Wf ∧ s.SnapWf ∧ s.StatusWf

/-- What R79 guarantees of the key state for either value of V: KEY_N = p·q with p, q ≥ 2, and KEY_E = modinv(KEY_D, φ). -/
def State.KeyWf (s : State) : Prop :=
  s.keyv = true → ∃ p q : Int, 2 ≤ p ∧ 2 ≤ q ∧ (s.keyN : Int) = p * q ∧ IsModinv s.keyD ((p - 1) * (q - 1)) s.keyE

/-- What R79 guarantees of a key made with V = 1. -/
def KeyValidated (n d e : Nat) (p q : Int) : Prop :=
  IsPrimeValue p ∧ IsPrimeValue q ∧ (n : Int) = p * q ∧ 2 ≤ (d : Int) ∧ (d : Int) ≤ (p - 1) * (q - 1) - 1
    ∧ IsGcd d ((p - 1) * (q - 1)) 1 ∧ IsModinv d ((p - 1) * (q - 1)) e

/-- R117: a run has ended when the host has executed its last operation and BUSY = 0. -/
abbrev State.Ended (s : State) : Prop := s.host = [] ∧ s.pending = none

/-- Two states with the same key state (R35). -/
abbrev SameKey (s t : State) : Prop := s.keyv = t.keyv ∧ s.keyN = t.keyN ∧ s.keyD = t.keyD ∧ s.keyE = t.keyE

/-- An answer of the step with KEY_D masked: what is left for anyone to see (R37). -/
def hideKeyD (o : Host.Outcome State Fault Refusal) : Host.Outcome State Fault Refusal :=
  match o with
  | .next t => .next { t with keyD := 0 }
  | .fault f => .fault f
  | .refused r => .refused r

/-! ### Legal accesses -/

/-- R16: the registers that exist for this K. -/
def Loc.mapped (p : Params) : Loc → Bool
  | .rdata _ i => decide (i < p.words)
  | .rmeta _ => true
  | .id => true
  | .param => true
  | .ctrl => true
  | .status => true
  | .cmd => true
  | .lastcmd => true

/-- An access RSACORE accepts (R43, R45), or one that never reaches it (R42). -/
abbrev Access.Legal (p : Params) (a : Access) : Prop :=
  (a.addr < p.base ∨ p.base + 0x2000 ≤ a.addr)
    ∨ (p.base ≤ a.addr ∧ a.width = .w32 ∧ (a.addr - p.base) % 4 = 0 ∧ locate p (a.addr - p.base) ≠ none)

end Sys2Proof.Machine
end

