-- ==== Sys2Proof/Certificates/Slice0/Obligations.lean ====
section
/-! DEFINITION. The statements for the provers. `s.takeTurn.1` is the next mover and `s.takeTurn.2` is s with that turn used up, nothing else changed;
`exec i s` is the completion step of a command that decodes to i, on the snapshot and key state of s. -/

open Sys2Proof Sys2Proof.Machine

/-! ### Encoding (30_encoding.md) -/

/-- 95_test_vectors.md section 2: words written out there decode to the commands written beside them. -/
def Obligations.CommandWordsDecodeAsTheSpecWritesThem : Prop :=
  decode 0x00000000#32 = .cmd .nop
    ∧ decode 0x00200301#32 = .cmd (.modred .r3 .r0 .r2)
    ∧ decode 0x00120402#32 = .cmd (.modmul .r4 .r0 .r2 .r1)
    ∧ decode 0x00210303#32 = .cmd (.modpow .r3 .r0 .r1 .r2)
    ∧ decode 0x00010304#32 = .cmd (.gcd .r3 .r0 .r1)
    ∧ decode 0x00100205#32 = .cmd (.modinv .r2 .r0 .r1)
    ∧ decode 0x00005006#32 = .cmd (.isprime .r5)
    ∧ decode 0x01210010#32 = .cmd (.keysetup .r0 .r1 .r2 true)
    ∧ decode 0x00004511#32 = .cmd (.sign .r5 .r4)
    ∧ decode 0x00045012#32 = .cmd (.verify .r5 .r4)
    ∧ decode 0x01000313#32 = .cmd (.keyrd .r3 .e)

/-- R57, R61, R64: decoding the word of an instruction gives the instruction back, with every operand at every value. -/
def Obligations.DecodeOfEncodeIsTheInstruction : Prop :=
  ∀ i : Instr, decode (encode i) = .cmd i

/-- R60, R61: a word that decodes to an instruction is that instruction's word, so no bit of a command word is ignored. -/
def Obligations.EncodeOfDecodeIsTheWord : Prop :=
  ∀ (w : Word) (i : Instr), decode w = .cmd i → encode i = w

/-- R61: at most one row of the opcode map matches any word. -/
def Obligations.OpcodeRowsAreDisjoint : Prop :=
  ∀ (w : Word) (r q : OpRow), r ∈ opRows → q ∈ opRows → r.hits w = true → q.hits w = true → r.mnemonic = q.mnemonic

/-- R60, R62: the words that are no command are those with a reserved OP, a must-be-zero bit set or an unused field that is not 0.
The second clause is about the decoder's reason for that, `reservedOpcode`: R63 answers Illegal without a reason, and the reasons' names are the model's
own (log entry 20). -/
def Obligations.IllegalWordsAreTheMalformedOnes : Prop :=
  ∀ w : Word,
    ((∃ why, decode w = .illegal why) ↔ (FormatC.ofWord w).wellFormed = false)
      ∧ (decode w = .illegal .reservedOpcode ↔ (FormatC.ofWord w).opAssigned = false)

/-- R60, R62, R94 (stage 1): such a word is accepted at issue like any other and completes with ILLEGAL_COMMAND, ERRSRC = 0, and no other effect. -/
def Obligations.MalformedWordCompletesWithIllegalCommand : Prop :=
  ∀ (s : State) (w : Word), (FormatC.ofWord w).wellFormed = false →
    (s.pending = none → (s.busWrite .cmd w).pending = some w)
      ∧ (s.takeTurn.1 = .engine → s.pending = some w → step s = .next (s.takeTurn.2.failed .illegalCommand .noSlot))

/-- R93, R94: when the engine moves and the pending word decodes to i, the step is exec of i, with the turn used up. -/
def Obligations.StepCompletesTheDecodedCommand : Prop :=
  ∀ (s : State) (w : Word) (i : Instr),
    s.takeTurn.1 = .engine → s.pending = some w → decode w = .cmd i → step s = exec i s.takeTurn.2

/-! ### The numeric family (40_numeric.md) -/

/-- R68: NOP completes in every state, writes no register and leaves RESULT 0. -/
def Obligations.NopCompletes : Prop :=
  ∀ s : State, exec .nop s = .next (s.succeeded s.regs false)

/-- R69: MODRED writes emod(a, m) to rd, for every m > 0 and every choice of registers. -/
def Obligations.ModredWritesTheRemainder : Prop :=
  ∀ (s : State) (rd ra rc : Reg) (a m : Int),
    s.snap.get ra = some a → s.snap.get rc = some m → 0 < m →
      ∃ r : Nat, IsEmod a m r ∧ exec (.modred rd ra rc) s = .next (s.succeeded (s.regsWith rd r) false)

/-- R70: MODMUL writes emod(a·b, m) to rd, for every m > 0. -/
def Obligations.ModmulWritesTheProductRemainder : Prop :=
  ∀ (s : State) (rd ra rb rc : Reg) (a b m : Int),
    s.snap.get ra = some a → s.snap.get rb = some b → s.snap.get rc = some m → 0 < m →
      ∃ r : Nat, IsEmod (a * b) m r ∧ exec (.modmul rd ra rb rc) s = .next (s.succeeded (s.regsWith rd r) false)

/-- R71: MODPOW writes modpow(b, x, m) to rd, for every x ≥ 0 and m > 0. -/
def Obligations.ModpowWritesThePower : Prop :=
  ∀ (s : State) (rd ra rb rc : Reg) (b x m : Int),
    s.snap.get ra = some b → s.snap.get rb = some x → s.snap.get rc = some m → 0 ≤ x → 0 < m →
      ∃ r : Nat, IsModpow b x.toNat m r ∧ exec (.modpow rd ra rb rc) s = .next (s.succeeded (s.regsWith rd r) false)

/-- R72: GCD writes gcd(a, b) to rd, for all a and b. -/
def Obligations.GcdWritesTheGreatestCommonDivisor : Prop :=
  ∀ (s : State) (rd ra rb : Reg) (a b : Int),
    s.snap.get ra = some a → s.snap.get rb = some b →
      ∃ g : Nat, IsGcd a b g ∧ exec (.gcd rd ra rb) s = .next (s.succeeded (s.regsWith rd g) false)

/-- R73: MODINV writes modinv(v, m) to rd, for every m > 0 with gcd(v, m) = 1. -/
def Obligations.ModinvWritesTheInverse : Prop :=
  ∀ (s : State) (rd ra rc : Reg) (v m : Int),
    s.snap.get ra = some v → s.snap.get rc = some m → 0 < m → IsGcd v m 1 →
      ∃ x : Nat, IsModinv v m x ∧ exec (.modinv rd ra rc) s = .next (s.succeeded (s.regsWith rd x) false)

/-- R74: ISPRIME sets RESULT exactly when v is prime, and writes no register. -/
def Obligations.IsprimeDecidesPrimality : Prop :=
  ∀ (s : State) (ra : Reg) (v : Int), s.snap.get ra = some v →
    ∃ res : Bool, (res = true ↔ IsPrimeValue v) ∧ exec (.isprime ra) s = .next (s.succeeded s.regs res)

/-- R69, R70, R71, R73: a modulus ≤ 0 raises BAD_OPERAND(3) and a negative exponent BAD_OPERAND(2), the exponent being checked first. -/
def Obligations.BadNumericOperandsFail : Prop :=
  ∀ (s : State) (rd ra rb rc : Reg) (a b m : Int),
    s.snap.get ra = some a → s.snap.get rb = some b → s.snap.get rc = some m →
      (m ≤ 0 → exec (.modred rd ra rc) s = .next (s.failed .badOperand .rc))
        ∧ (m ≤ 0 → exec (.modmul rd ra rb rc) s = .next (s.failed .badOperand .rc))
        ∧ (m ≤ 0 → exec (.modinv rd ra rc) s = .next (s.failed .badOperand .rc))
        ∧ (b < 0 → exec (.modpow rd ra rb rc) s = .next (s.failed .badOperand .rb))
        ∧ (0 ≤ b → m ≤ 0 → exec (.modpow rd ra rb rc) s = .next (s.failed .badOperand .rc))

/-- R73: MODINV raises NO_INVERSE(1) when m > 0 and v and m have a common divisor above 1. -/
def Obligations.ModinvWithoutInverseFails : Prop :=
  ∀ (s : State) (rd ra rc : Reg) (v m c : Int),
    s.snap.get ra = some v → s.snap.get rc = some m → 0 < m → 1 < c → c ∣ v → c ∣ m →
      exec (.modinv rd ra rc) s = .next (s.failed .noInverse .ra)

/-! ### The RSA family (41_rsa.md) -/

/-- R81, V = 1: with p and q prime, 2 ≤ d ≤ φ − 1, gcd(d, φ) = 1 and p·q < 2^K, an unlocked KEYSETUP writes the key (p·q, d, modinv(d, φ)) and no operand
register. -/
def Obligations.ValidatedKeysetupWritesTheKey : Prop :=
  ∀ (s : State) (ra rb rc : Reg) (p q d : Int),
    s.keyv = false → s.snap.get ra = some p → s.snap.get rb = some q → s.snap.get rc = some d →
      IsPrimeValue p → IsPrimeValue q → 2 ≤ d → d ≤ (p - 1) * (q - 1) - 1 → IsGcd d ((p - 1) * (q - 1)) 1 → p * q < 2 ^ s.params.k →
        ∃ e : Nat, IsModinv d ((p - 1) * (q - 1)) e
          ∧ exec (.keysetup ra rb rc true) s
            = .next { s.succeeded s.regs false with keyN := (p * q).toNat, keyD := d.toNat, keyE := e, keyv := true }

/-- R81, V = 0: with p, q ≥ 2, d ≥ 0, gcd(d, φ) = 1 and p·q < 2^K, an unlocked KEYSETUP writes the key with d as given, whether or not p and q are prime. -/
def Obligations.UnvalidatedKeysetupWritesTheKey : Prop :=
  ∀ (s : State) (ra rb rc : Reg) (p q d : Int),
    s.keyv = false → s.snap.get ra = some p → s.snap.get rb = some q → s.snap.get rc = some d →
      2 ≤ p → 2 ≤ q → 0 ≤ d → IsGcd d ((p - 1) * (q - 1)) 1 → p * q < 2 ^ s.params.k →
        ∃ e : Nat, IsModinv d ((p - 1) * (q - 1)) e
          ∧ exec (.keysetup ra rb rc false) s
            = .next { s.succeeded s.regs false with keyN := (p * q).toNat, keyD := d.toNat, keyE := e, keyv := true }

/-- R81, V = 1: the validation checks in CLS order: p not prime, q not prime, d out of range, d not coprime to φ. -/
def Obligations.KeysetupValidationErrors : Prop :=
  ∀ (s : State) (ra rb rc : Reg) (p q d c : Int),
    s.keyv = false → s.snap.get ra = some p → s.snap.get rb = some q → s.snap.get rc = some d →
      (¬IsPrimeValue p → exec (.keysetup ra rb rc true) s = .next (s.failed .invalidKey .ra))
        ∧ (IsPrimeValue p → ¬IsPrimeValue q → exec (.keysetup ra rb rc true) s = .next (s.failed .invalidKey .rb))
        ∧ (IsPrimeValue p → IsPrimeValue q → ¬(2 ≤ d ∧ d ≤ (p - 1) * (q - 1) - 1) →
            exec (.keysetup ra rb rc true) s = .next (s.failed .invalidKey .rc))
        ∧ (IsPrimeValue p → IsPrimeValue q → 2 ≤ d → d ≤ (p - 1) * (q - 1) - 1 → 1 < c → c ∣ d → c ∣ (p - 1) * (q - 1) →
            exec (.keysetup ra rb rc true) s = .next (s.failed .invalidKey .rc))

/-- R81: the structural checks, OVERFLOW and NO_INVERSE, in their order, for V = 0; and OVERFLOW for a key that passes validation with V = 1. -/
def Obligations.KeysetupConstructionErrors : Prop :=
  ∀ (s : State) (ra rb rc : Reg) (p q d c : Int),
    s.keyv = false → s.snap.get ra = some p → s.snap.get rb = some q → s.snap.get rc = some d →
      (p < 2 → exec (.keysetup ra rb rc false) s = .next (s.failed .badOperand .ra))
        ∧ (2 ≤ p → q < 2 → exec (.keysetup ra rb rc false) s = .next (s.failed .badOperand .rb))
        ∧ (2 ≤ p → 2 ≤ q → d < 0 → exec (.keysetup ra rb rc false) s = .next (s.failed .badOperand .rc))
        ∧ (2 ≤ p → 2 ≤ q → 0 ≤ d → 2 ^ s.params.k ≤ p * q → exec (.keysetup ra rb rc false) s = .next (s.failed .overflow .noSlot))
        ∧ (2 ≤ p → 2 ≤ q → 0 ≤ d → p * q < 2 ^ s.params.k → 1 < c → c ∣ d → c ∣ (p - 1) * (q - 1) →
            exec (.keysetup ra rb rc false) s = .next (s.failed .noInverse .rc))
        ∧ (IsPrimeValue p → IsPrimeValue q → 2 ≤ d → d ≤ (p - 1) * (q - 1) - 1 → IsGcd d ((p - 1) * (q - 1)) 1 →
            2 ^ s.params.k ≤ p * q → exec (.keysetup ra rb rc true) s = .next (s.failed .overflow .noSlot))

/-- R80, R82: with a key, SIGN of a digest with |h| < KEY_N writes modpow(h, KEY_D, KEY_N) to rd; the key is read and not written. -/
def Obligations.SignWritesTheHashImage : Prop :=
  ∀ (s : State) (rd ra : Reg) (h : Int),
    s.keyv = true → s.snap.get ra = some h → h.natAbs < s.keyN →
      ∃ sig : Nat, IsModpow h s.keyD s.keyN sig ∧ exec (.sign rd ra) s = .next (s.succeeded (s.regsWith rd sig) false)

/-- R80, R83: with a key, VERIFY of a signature with |sig| < KEY_N sets RESULT exactly when h is modpow(sig, KEY_E, KEY_N); h is not range-checked. -/
def Obligations.VerifyComparesTheHashImage : Prop :=
  ∀ (s : State) (ra rb : Reg) (sig h : Int),
    s.keyv = true → s.snap.get ra = some sig → s.snap.get rb = some h → sig.natAbs < s.keyN →
      ∃ res : Bool, (res = true ↔ IsModpow sig s.keyE s.keyN h) ∧ exec (.verify ra rb) s = .next (s.succeeded s.regs res)

/-- R80, R82, R83: the hash-image gate: a digest to sign, or a signature to verify, with magnitude ≥ KEY_N raises MODULUS_TOO_SMALL(1). -/
def Obligations.HashImageGateRejects : Prop :=
  ∀ (s : State) (rd ra rb : Reg) (x h : Int),
    s.keyv = true → s.snap.get ra = some x → s.snap.get rb = some h → s.keyN ≤ x.natAbs →
      exec (.sign rd ra) s = .next (s.failed .modulusTooSmall .ra) ∧ exec (.verify ra rb) s = .next (s.failed .modulusTooSmall .ra)

/-- R84: with a key, KEYRD copies KEY_N or KEY_E into rd. -/
def Obligations.KeyrdCopiesAPublicKeyRegister : Prop :=
  ∀ (s : State) (rd : Reg), s.keyv = true →
    exec (.keyrd rd .n) s = .next (s.succeeded (s.regsWith rd s.keyN) false)
      ∧ exec (.keyrd rd .e) s = .next (s.succeeded (s.regsWith rd s.keyE) false)

/-- R94, stage 2: the key-state check comes before the operand checks, whatever the operands are. -/
def Obligations.KeyStateIsCheckedBeforeOperands : Prop :=
  ∀ (s : State) (rd ra rb rc : Reg) (v : Bool) (sel : KeySel),
    (s.keyv = false →
        exec (.sign rd ra) s = .next (s.failed .keyNotReady .noSlot)
          ∧ exec (.verify ra rb) s = .next (s.failed .keyNotReady .noSlot)
          ∧ exec (.keyrd rd sel) s = .next (s.failed .keyNotReady .noSlot))
      ∧ (s.keyv = true → exec (.keysetup ra rb rc v) s = .next (s.failed .keyLocked .noSlot))

/-- R94, stage 3: the first unwritten source slot, in the order RA, RB, RC, decides the error, for every command that has a source. -/
def Obligations.FirstUnwrittenSlotDecides : Prop :=
  ∀ (s : State) (i : Instr) (before after : List (Slot × Reg)) (slot : Slot) (r : Reg),
    i.keyStage s.keyv = none → i.sources = before ++ (slot, r) :: after →
      (∀ x ∈ before, s.snap.get x.2 ≠ none) → s.snap.get r = none →
        exec i s = .next (s.failed (i.unwrittenError slot) slot)

/-! ### What commands leave alone, and errors (60_exceptions.md) -/

/-- R32, R93, R95: what a completion leaves unchanged. No operand register but the destination of a success changes; only KEYSETUP changes key state;
CTRL, OVR, WBUSY, LASTCMD, SNAP and the host's side are as before. -/
def Obligations.CommandFrame : Prop :=
  ∀ (i : Instr) (s t : State), exec i s = .next t →
    (∀ r : Reg, i.dst? ≠ some r → t.regs.get r = s.regs.get r)
      ∧ (i.isKeysetup = false → SameKey t s)
      ∧ t.params = s.params ∧ t.ie = s.ie ∧ t.ovr = s.ovr ∧ t.wbusy = s.wbusy ∧ t.lastcmd = s.lastcmd ∧ t.snap = s.snap
      ∧ t.host = s.host ∧ t.turns = s.turns ∧ t.reads = s.reads ∧ t.draws = s.draws

/-- R95: a completion with an error leaves every operand register and the key state exactly as they were, for a word that is no command too; and as no
host step changes them while a command is pending, that is as they were at issue. A KEYSETUP that fails in the Uninitialized state leaves KEYV = 0. -/
def Obligations.FailedCompletionWritesNothing : Prop :=
  (∀ s t : State, s.takeTurn.1 = .engine → s.pending ≠ none → step s = .next t → t.errcode ≠ .noError →
      t.regs = s.regs ∧ SameKey t s)
    ∧ (∀ s t : State, s.takeTurn.1 = .host → s.pending ≠ none → step s = .next t → t.regs = s.regs ∧ SameKey t s)
    ∧ (∀ (s t : State) (ra rb rc : Reg) (v : Bool), s.keyv = false → exec (.keysetup ra rb rc v) s = .next t →
        t.errcode ≠ .noError → t.keyv = false)

/-- R89, R93: every command in every state completes: PENDING becomes none, DONE 1, ERR is set exactly by an error, and RESULT is 0 with an error. -/
def Obligations.EveryCommandCompletes : Prop :=
  ∀ (i : Instr) (s : State), ∃ t, exec i s = .next t ∧ t.pending = none ∧ t.done = true
    ∧ (t.errcode ≠ .noError → t.result = false)

/-- R93: "Execute depends only on its arguments": two states with the same snapshot, key state and K give the same outcome. -/
def Obligations.OutcomeDependsOnSnapshotAndKey : Prop :=
  ∀ (i : Instr) (s u t v : State), s.snap = u.snap → SameKey s u → s.params.k = u.params.k →
    exec i s = .next t → exec i u = .next v →
      t.result = v.result ∧ t.errcode = v.errcode ∧ t.errsrc = v.errsrc ∧ SameKey t v
        ∧ (∀ rd : Reg, i.dst? = some rd → t.errcode = .noError → t.regs.get rd = v.regs.get rd)

/-! ### Key state (10_state.md R35 to R37; 41_rsa.md R79, R85, R87) -/

/-- R36: the key state changes in exactly two ways: a successful KEYSETUP takes KEYV from 0 to 1, and reset takes it to 0. -/
def Obligations.KeyStateHasExactlyTwoTransitions : Prop :=
  (∀ s t : State, step s = .next t →
      SameKey t s
        ∨ (s.takeTurn.1 = .engine ∧ s.keyv = false ∧ t.keyv = true ∧ t.errcode = .noError
            ∧ ∃ w i, s.pending = some w ∧ decode w = .cmd i ∧ i.isKeysetup = true)
        ∨ (s.takeTurn.1 = .reset ∧ t.keyv = false))
    ∧ (∀ (s t : State) (ra rb rc : Reg) (v : Bool), exec (.keysetup ra rb rc v) s = .next t →
        (t.errcode = .noError → s.keyv = false ∧ t.keyv = true
            ∧ ∃ p q d : Int, s.snap.get ra = some p ∧ s.snap.get rb = some q ∧ s.snap.get rc = some d
                ∧ (t.keyN : Int) = p * q ∧ (t.keyD : Int) = d ∧ IsModinv d ((p - 1) * (q - 1)) t.keyE)
          ∧ (t.errcode ≠ .noError → SameKey t s)
          ∧ (s.keyv = true → t.errcode = .keyLocked))
    ∧ (∀ s : State, s.takeTurn.1 = .reset → ∃ t, step s = .next t ∧ t.keyv = false)

/-- R79 (for either V): every step keeps "KEYV = 1 means KEY_N = p·q with p, q ≥ 2 and KEY_E = modinv(KEY_D, φ)". -/
def Obligations.StepKeepsTheKeyInvariant : Prop :=
  ∀ s t : State, s.KeyWf → step s = .next t → t.KeyWf

/-- R79: what a successful KEYSETUP guarantees, by V. -/
def Obligations.KeysetupGuarantees : Prop :=
  ∀ (s t : State) (ra rb rc : Reg) (v : Bool), exec (.keysetup ra rb rc v) s = .next t → t.errcode = .noError →
    t.KeyWf ∧ t.keyv = true
      ∧ (v = true → ∃ p q : Int, s.snap.get ra = some p ∧ s.snap.get rb = some q ∧ KeyValidated t.keyN t.keyD t.keyE p q)

/-- R85: after a successful KEYSETUP with V = 1 and p ≠ q, a digest 0 ≤ h < KEY_N signs to a value that verifies against h, whatever ran in between. -/
def Obligations.SignThenVerifyRoundTrip : Prop :=
  ∀ (s t u v : State) (rp rq rk rh rd ra rb : Reg) (p q h : Int),
    exec (.keysetup rp rq rk true) s = .next t → t.errcode = .noError →
      s.snap.get rp = some p → s.snap.get rq = some q → p ≠ q → SameKey u t → SameKey v t →
        u.snap.get rh = some h → 0 ≤ h → h < t.keyN →
          ∃ sig : Nat, exec (.sign rd rh) u = .next (u.succeeded (u.regsWith rd sig) false)
            ∧ (v.snap.get ra = some (sig : Int) → v.snap.get rb = some h → exec (.verify ra rb) v = .next (v.succeeded v.regs true))

/-- R87: under R85's conditions a changed signature with |x| < KEY_N verifies exactly when its residue is that of the signature, and one with
|x| ≥ KEY_N raises MODULUS_TOO_SMALL. -/
def Obligations.TamperedSignatureIsDetectedByResidue : Prop :=
  ∀ (s t u v : State) (rp rq rk rh rd ra rb : Reg) (p q h x : Int) (sig : Nat),
    exec (.keysetup rp rq rk true) s = .next t → t.errcode = .noError →
      s.snap.get rp = some p → s.snap.get rq = some q → p ≠ q → SameKey u t → SameKey v t →
        u.snap.get rh = some h → 0 ≤ h → h < t.keyN →
          exec (.sign rd rh) u = .next (u.succeeded (u.regsWith rd sig) false) →
            v.snap.get ra = some x → v.snap.get rb = some h →
              (x.natAbs < t.keyN → ∃ res : Bool, (res = true ↔ (t.keyN : Int) ∣ x - sig)
                  ∧ exec (.verify ra rb) v = .next (v.succeeded v.regs res))
                ∧ (t.keyN ≤ x.natAbs → exec (.verify ra rb) v = .next (v.failed .modulusTooSmall .ra))

/-- R37: KEY_D has no read path: unless a SIGN is pending, a step answers the same for every KEY_D, but for KEY_D itself. -/
def Obligations.OnlySignUsesTheSecretExponent : Prop :=
  ∀ (s : State) (d : Nat), (∀ w i, s.pending = some w → decode w = .cmd i → i.isSign = false) →
    hideKeyD (step { s with keyD := d }) = hideKeyD (step s)

/-! ### Invariants, reset and progress (10_state.md R30, R38; 70_reset_and_hazards.md) -/

/-- R30, R35, R38, R91, R112: every step keeps the invariant of the block. -/
def Obligations.StepKeepsTheInvariant : Prop :=
  ∀ s t : State, s.Inv → step s = .next t → t.Inv

/-- The state after reset has the invariant, in the reference configuration and in every allowed one. BASE = 0 in State.reset, and SNAP all unwritten,
are the model's choices (log entries 1 and 6). -/
def Obligations.ResetHasTheInvariant : Prop :=
  State.reset.Inv ∧ ∀ (p : Params) (draw : Nat), p.wf = true → (State.afterReset p draw).Inv

/-- R106 to R108: reset in any state, a pending command or not, is one step to the values of R107. -/
def Obligations.ResetGivesTheResetValues : Prop :=
  ∀ s : State, s.takeTurn.1 = .reset →
    ∃ t, step s = .next t ∧ t.ie = false ∧ t.statusWord = 0#32 ∧ t.lastcmd = 0#32 ∧ t.keyv = false ∧ t.pending = none ∧ t.irq = false
      ∧ (∀ r : Reg, (t.regs.get r).valid = false ∧ (t.regs.get r).sign = false) ∧ t.params = s.params

/-- R8, R116: with legal accesses only, a pending command is completed, or reset away, within the turns that are left and one more. That the engine
moves once the turns are used up is the model's form of weak fairness (log entry 2). -/
def Obligations.PendingCommandCompletes : Prop :=
  ∀ s : State, s.pending ≠ none → (∀ a, HostOp.access a ∈ s.host → a.Legal s.params) →
    ∃ n, n ≤ s.turns.length + 1 ∧ ∃ t : State, Sys2Proof.core.run n s = .next t ∧ t.pending = none

/-- R66, R112: WAIT stays while BUSY = 1, and ends with a STATUS read whose bit 0 is 0 after the engine has completed. That the engine
moves first once the turns are used up is the model's form of weak fairness (log entry 2). -/
def Obligations.WaitEndsAfterCompletion : Prop :=
  ∀ (s : State) (rest : List HostOp), s.host = .wait :: rest → s.pending ≠ none →
    (s.takeTurn.1 = .host → ∃ t, step s = .next t ∧ t.host = s.host ∧ t.pending = s.pending)
      ∧ (s.turns = [] → ∃ (t : State) (x : Word), Sys2Proof.core.run 2 s = .next t ∧ t.host = rest ∧ t.pending = none
          ∧ t.reads = x :: s.reads ∧ x.getLsbD 0 = false)

/-- R116, R117: a host that makes only legal accesses reaches the end of its run, its WAITs included: two steps for each of its operations, and one for
a command that was pending before, are enough. The order of the steps is the model's form of weak fairness (log entry 2). -/
def Obligations.RunOfLegalAccessesEnds : Prop :=
  ∀ s : State, s.turns = [] → (∀ a, HostOp.access a ∈ s.host → a.Legal s.params) →
    ∃ n, n ≤ 2 * s.host.length + 1 ∧ ∃ t : State, Sys2Proof.core.run n s = .next t ∧ t.Ended

/-! ### The register aperture (10_state.md, 20_memory.md) -/

/-- R66: LI's expansion, run on an idle engine, leaves R[N] = v with VALID = 1 and changes nothing else. It is stated for the order in
which no turns are placed and the idle engine leaves every step to the host, which is the model's choice (log entry 2). -/
def Obligations.LiLoadsTheValue : Prop :=
  ∀ (s : State) (r : Reg) (v : Int) (rest : List HostOp),
    s.params.wf = true → s.pending = none → s.turns = [] → v.natAbs < 2 ^ s.params.k →
      s.host = HostLine.expand s.params (.li r v) ++ rest →
        Sys2Proof.core.run (HostLine.expand s.params (.li r v)).length s
          = .next { s with host := rest, regs := s.regs.set r { sign := decide (v < 0), valid := true, mag := v.natAbs } }

/-- R47: the magnitude is the sum of its words, least significant first, read or written. -/
def Obligations.MagnitudeIsTheSumOfItsWords : Prop :=
  ∀ (s : State) (r : Reg) (ws : Nat → Word), s.Wf → s.pending = none →
    (∀ i : Nat, (s.readValue (.rdata r i)).toNat = (s.regs.get r).mag / 2 ^ (32 * i) % 2 ^ 32)
      ∧ (s.regs.get r).mag = ∑ i ∈ Finset.range s.params.words, (s.readValue (.rdata r i)).toNat * 2 ^ (32 * i)
      ∧ (((List.range s.params.words).foldl (fun u i => u.busWrite (.rdata r i) (ws i)) s).regs.get r).mag
          = ∑ i ∈ Finset.range s.params.words, (ws i).toNat * 2 ^ (32 * i)

/-- R28: an RDATA write on an idle engine sets its word and nothing else that any register of the aperture reads; while BUSY = 1 it is dropped. -/
def Obligations.DataWriteSetsOneWord : Prop :=
  ∀ (s : State) (r : Reg) (i : Nat) (w : Word),
    (s.pending = none →
        (s.busWrite (.rdata r i) w).readValue (.rdata r i) = w
          ∧ (∀ l : Loc, l ≠ .rdata r i → (s.busWrite (.rdata r i) w).readValue l = s.readValue l)
          ∧ ((s.busWrite (.rdata r i) w).regs.get r).sign = (s.regs.get r).sign
          ∧ ((s.busWrite (.rdata r i) w).regs.get r).valid = (s.regs.get r).valid)
      ∧ (s.pending ≠ none → s.busWrite (.rdata r i) w = { s with wbusy := true })

/-- R26: an RMETA write: ZERO, then SIGN, then VALID; bits 31:3 are ignored; while BUSY = 1 it is dropped (R29). -/
def Obligations.MetaWriteSetsSignValidAndZero : Prop :=
  ∀ (s : State) (r : Reg) (w : Word),
    (s.pending = none →
        s.busWrite (.rmeta r) w
          = { s with
              regs := s.regs.set r
                { sign := w.getLsbD 0, valid := w.getLsbD 1, mag := if w.getLsbD 2 = true then 0 else (s.regs.get r).mag } })
      ∧ (s.pending ≠ none → s.busWrite (.rmeta r) w = { s with wbusy := true })

/-- R29, R111: while BUSY = 1 a read of the operand window returns a fresh draw and changes nothing of the block; the other registers read as always.
The counter the draw is taken from is the model's own (log entry 5); the draw may have any value. -/
def Obligations.WindowReadsWhileBusyAreDraws : Prop :=
  ∀ (s : State) (l : Loc), s.pending ≠ none →
    (l.isWindow = true →
        s.readValue l = Config.freeWord s.draws
          ∧ s.busRead l = { s with reads := Config.freeWord s.draws :: s.reads, draws := s.draws + 1 })
      ∧ (l.isWindow = false → s.readValue l = s.locWord l ∧ s.busRead l = { s with reads := s.locWord l :: s.reads })

/-- R20: a STATUS write clears DONE, OVR and WBUSY where w has a 1, and does nothing else. ERRCODE, ERRSRC and RESULT are changed by no read and by no
write but a CMD write (the issue), so among the steps only by issue, completion and reset. -/
def Obligations.StatusWriteClearsThreeBits : Prop :=
  (∀ (s : State) (w : Word),
      s.busWrite .status w
        = { s with
            done := if w.getLsbD 1 = true then false else s.done
            ovr := if w.getLsbD 5 = true then false else s.ovr
            wbusy := if w.getLsbD 6 = true then false else s.wbusy })
    ∧ ∀ s t : State, step s = .next t → s.takeTurn.1 = .host →
        (t.errcode = s.errcode ∧ t.errsrc = s.errsrc ∧ t.result = s.result)
          ∨ (s.pending = none ∧ t.pending ≠ none)

/-- R19, R90, R91: STATUS as a number, field by field; an error code above 10 is never read. -/
def Obligations.StatusWordLayout : Prop :=
  ∀ s : State,
    (s.readValue .status).toNat
        = (if s.pending ≠ none then 1 else 0) + 2 * s.done.toNat + 4 * (if s.errcode ≠ .noError then 1 else 0) + 8 * s.result.toNat
          + 16 * s.keyv.toNat + 32 * s.ovr.toNat + 64 * s.wbusy.toNat + 256 * s.errcode.code.toNat + 4096 * s.errsrc.code.toNat
      ∧ s.errcode.code.toNat ≤ 10

/-- R92: a CMD write issues the command in an idle engine, capturing every operand register; while BUSY = 1 the word is dropped and OVR is set. -/
def Obligations.CmdWriteIssuesOrIsDropped : Prop :=
  ∀ (s : State) (w : Word),
    (s.pending ≠ none → s.busWrite .cmd w = { s with ovr := true })
      ∧ (s.pending = none →
          ∃ snap : Bank (Option Int),
            (∀ r : Reg, snap.get r = if (s.regs.get r).valid = true then
                some (if (s.regs.get r).sign = true then -((s.regs.get r).mag : Int) else ((s.regs.get r).mag : Int)) else none)
              ∧ s.busWrite .cmd w
                = { s with
                    pending := some w, lastcmd := w, snap := snap, done := false, result := false, errcode := .noError,
                    errsrc := .noSlot })

/-- R18: a CTRL write sets IE from bit 0 and ignores the rest, command pending or not; CTRL reads IE in bit 0; IE is 0 after reset. -/
def Obligations.CtrlHoldsTheInterruptEnable : Prop :=
  (∀ (s : State) (w : Word), s.busWrite .ctrl w = { s with ie := w.getLsbD 0 } ∧ (s.readValue .ctrl).toNat = s.ie.toNat)
    ∧ State.reset.ie = false

/-- R34, R96: a completion, failed or not, raises IRQ exactly when IE = 1; an accepted issue and a write of 1 to DONE make it fall. -/
def Obligations.IrqFollowsDone : Prop :=
  (∀ (i : Instr) (s t : State), exec i s = .next t → t.irq = s.ie)
    ∧ (∀ (s : State) (w : Word), s.pending = none → (s.busWrite .cmd w).irq = false)
    ∧ (∀ (s : State) (w : Word), w.getLsbD 1 = true → (s.busWrite .status w).irq = false)
    ∧ State.reset.irq = false

/-- R22, R23 (and R17, R21): ID and PARAM always read their constants, CMD reads 0, and writes to ID, PARAM and LASTCMD do nothing. -/
def Obligations.ConstantAndReadOnlyRegisters : Prop :=
  (∀ s : State, s.readValue .id = 0x52534131#32 ∧ s.readValue .cmd = 0#32 ∧ s.readValue .lastcmd = s.lastcmd
      ∧ (s.params.wf = true → (s.readValue .param).toNat = s.params.k + 8 * 2 ^ 16))
    ∧ State.reset.readValue .param = 0x00080800#32
    ∧ (∀ (s : State) (w : Word), s.busWrite .id w = s ∧ s.busWrite .param w = s ∧ s.busWrite .lastcmd w = s)

/-- R16: the register map and the address decoder agree, for every K. -/
def Obligations.RegisterMapRoundTrip : Prop :=
  ∀ p : Params, p.wf = true →
    (∀ l : Loc, l.mapped p = true → locate p l.offset = some l ∧ l.offset % 4 = 0 ∧ l.offset < 0x2000)
      ∧ (∀ (off : Nat) (l : Loc), off % 4 = 0 → locate p off = some l → l.mapped p = true ∧ l.offset = off)

/-- R44: an access inside the aperture that is not 32 bits wide, or not at a multiple of 4, is a fault of the host step and has no effect. -/
def Obligations.NarrowOrMisalignedAccessFaults : Prop :=
  ∀ (s : State) (a : Access) (rest : List HostOp),
    s.takeTurn.1 = .host → s.host = .access a :: rest → s.params.base ≤ a.addr → a.addr < s.params.base + 0x2000 →
      (a.width ≠ .w32 ∨ (a.addr - s.params.base) % 4 ≠ 0) → step s = .fault .busErrorWidthOrAlignment

/-- R45: an aligned 32-bit access at an unmapped offset is a bus error with no effect. -/
def Obligations.UnmappedOffsetFaults : Prop :=
  ∀ (s : State) (a : Access) (rest : List HostOp) (off : Nat),
    s.takeTurn.1 = .host → s.host = .access a :: rest → a.width = .w32 → a.addr = s.params.base + off → off % 4 = 0 →
      (0x018 ≤ off ∧ off ≤ 0x01F ∨ 0x040 ≤ off ∧ off ≤ 0x3FF
        ∨ 0x400 ≤ off ∧ off ≤ 0x13FF ∧ s.params.k / 32 ≤ off % 0x200 / 4 ∨ 0x1400 ≤ off ∧ off ≤ 0x1FFF) →
        step s = .fault .busErrorUnmapped

/-- R42, R43: an aligned 32-bit access at a mapped register reads or writes that register in one step; one outside the aperture does not reach the block.
That such an access outside is one step, taken off the host's list with no value read, is the model's reading of R42 (log entry 9). -/
def Obligations.LegalAccessReachesItsRegister : Prop :=
  ∀ (s : State) (rest : List HostOp) (l : Loc) (v : Word), s.params.wf = true → s.takeTurn.1 = .host → l.mapped s.params = true →
    (s.host = .access (.read (s.params.base + l.offset) .w32) :: rest →
        step s = .next (State.busRead l { s.takeTurn.2 with host := rest }))
      ∧ (s.host = .access (.write (s.params.base + l.offset) .w32 v) :: rest →
        step s = .next (State.busWrite l v { s.takeTurn.2 with host := rest }))
      ∧ (∀ a : Access, s.host = .access a :: rest → (a.addr < s.params.base ∨ s.params.base + 0x2000 ≤ a.addr) →
        step s = .next { s.takeTurn.2 with host := rest })

/-- R49: a read changes no state of the block, so every register reads the same after it, but for the draws of a busy operand window. -/
def Obligations.ReadsHaveNoSideEffects : Prop :=
  ∀ (s : State) (l m : Loc),
    { s.busRead l with reads := s.reads, draws := s.draws } = s
      ∧ (s.pending = none ∨ m.isWindow = false → (s.busRead l).readValue m = s.readValue m)

/-- R43 to R45, R89: a step faults only on a host access that RSACORE does not accept, and no step refuses. -/
def Obligations.OnlyIllegalAccessesFault : Prop :=
  ∀ s : State,
    (∀ f, step s = .fault f → s.takeTurn.1 = .host ∧ ∃ a rest, s.host = .access a :: rest ∧ ¬a.Legal s.params)
      ∧ ∀ r, step s ≠ .refused r

/-- R24: LASTCMD changes only when a command is issued, which also makes it the pending word, and at reset. -/
def Obligations.LastcmdRecordsTheIssuedWord : Prop :=
  ∀ s t : State, step s = .next t →
    t.lastcmd = s.lastcmd
      ∨ (s.takeTurn.1 = .host ∧ s.pending = none ∧ t.pending = some t.lastcmd)
      ∨ (s.takeTurn.1 = .reset ∧ t.lastcmd = 0#32)
end

