-- ==== Sys2Proof/Laws/Arith.lean ====
section
/-! SUPPORT. The exact algorithms of Machine/Arith.lean give what 00_scope.md R10 and R11 define: one lemma for each function. -/

namespace Sys2Proof.Machine

/-! ### emod and gcd -/

/-- R10. -/
theorem emod_spec (a : Int) {m : Int} (hm : 0 < m) : 0 ≤ emod a m ∧ emod a m < m ∧ m ∣ a - emod a m :=
  ⟨Int.emod_nonneg a hm.ne', Int.emod_lt_of_pos a hm, Int.dvd_self_sub_emod⟩

/-- R10: the remainder is unique. -/
theorem emod_unique {a m r : Int} (h0 : 0 ≤ r) (h1 : r < m) (hd : m ∣ a - r) : emod a m = r := by
  have e : a % m = r % m := (Int.emod_emod_of_dvd a (dvd_refl m)).symm.trans
    (by rw [Int.emod_emod_of_dvd a (dvd_refl m)]; exact Int.ModEq.symm ((Int.modEq_iff_dvd).2 hd))
  rw [emod, e, Int.emod_eq_of_lt h0 h1]

/-- R10: gcd is taken on |a| and |b|. -/
theorem gcdAbs_eq (a b : Int) : gcdAbs a b = Int.gcd a b := rfl

/-! ### modpow -/

/-- Repeated squaring is exponentiation, for a fuel of at least the bit length of x. -/
theorem powMod_eq (b m : Nat) : ∀ (fuel x : Nat), x < 2 ^ fuel → powMod b m fuel x = b ^ x % m
  | 0, x, h => by
    have : x = 0 := by simpa using h
    simp [powMod, this]
  | fuel + 1, x, h => by
    by_cases hx : x = 0
    · simp [powMod, hx]
    have hhalf : x / 2 < 2 ^ fuel := by omega
    have ih := powMod_eq b m fuel (x / 2) hhalf
    have hsq : powMod b m fuel (x / 2) * powMod b m fuel (x / 2) % m = b ^ (x / 2 + x / 2) % m := by
      rw [ih, pow_add, ← Nat.mul_mod]
    simp only [powMod, hx, if_false, hsq]
    split
    · have : x = x / 2 + x / 2 + 1 := by omega
      conv_rhs => rw [this, pow_succ]
      rw [Nat.mod_mul_mod]
    · have : x = x / 2 + x / 2 := by omega
      rw [← this]

/-- R11: `modpow(b, x, m)` is `emod(emod(b, m)^x, m)`. -/
theorem modpow_eq (b : Int) {x m : Int} (hm : 0 < m) : modpow b x m = emod (emod b m ^ x.toNat) m := by
  have hb := (emod_spec b hm).1
  have h : x.toNat < 2 ^ (x.toNat.log2 + 1) := Nat.lt_log2_self
  rw [modpow, powMod_eq _ _ _ _ h]
  push_cast
  rw [Int.toNat_of_nonneg hb, Int.toNat_of_nonneg hm.le]
  rfl

/-- R78, law 3: the result of modpow lies in [0, m). -/
theorem modpow_range (b : Int) {x m : Int} (hm : 0 < m) : 0 ≤ modpow b x m ∧ modpow b x m < m := by
  rw [modpow_eq b hm]
  exact ⟨(emod_spec _ hm).1, (emod_spec _ hm).2.1⟩

/-! ### modinv -/

/-- Euclid's algorithm keeps t·v ≡ r (mod m) for both rows, so the coefficient it ends with, times v, is the gcd modulo m. -/
theorem euclid_spec (v m : Int) : ∀ (fuel r0 : Nat) (t0 : Int) (r1 : Nat) (t1 : Int), r1 < fuel →
    m ∣ t0 * v - r0 → m ∣ t1 * v - r1 → m ∣ euclid fuel r0 t0 r1 t1 * v - (Nat.gcd r0 r1 : Nat)
  | 0, _, _, _, _, h, _, _ => absurd h (Nat.not_lt_zero _)
  | fuel + 1, r0, t0, r1, t1, h, h0, h1 => by
    by_cases hr : r1 = 0
    · subst hr
      simpa [euclid] using h0
    have hlt : r0 % r1 < fuel := by
      have := Nat.mod_lt r0 (Nat.pos_of_ne_zero hr)
      omega
    have hstep : m ∣ (t0 - ((r0 / r1 : Nat) : Int) * t1) * v - ((r0 % r1 : Nat) : Int) := by
      have hdiv : (r0 : Int) = ((r0 / r1 : Nat) : Int) * r1 + ((r0 % r1 : Nat) : Int) := by
        exact_mod_cast (Nat.div_add_mod' r0 r1).symm
      have : (t0 - ((r0 / r1 : Nat) : Int) * t1) * v - ((r0 % r1 : Nat) : Int)
          = (t0 * v - r0) - ((r0 / r1 : Nat) : Int) * (t1 * v - r1) := by
        linear_combination hdiv
      rw [this]
      exact dvd_sub h0 (h1.mul_left _)
    have ih := euclid_spec v m fuel r1 t1 (r0 % r1) _ hlt h1 hstep
    have hg : Nat.gcd r0 r1 = Nat.gcd r1 (r0 % r1) := by
      rw [Nat.gcd_comm r0 r1, Nat.gcd_rec r1 r0, Nat.gcd_comm]
    simpa [euclid, hr, hg] using ih

/-- R11: `modinv(v, m)` is the x with 0 ≤ x < m and m dividing v·x − 1. -/
theorem modinv_spec {v m : Int} (hm : 0 < m) (hg : gcdAbs v m = 1) :
    0 ≤ modinv v m ∧ modinv v m < m ∧ m ∣ v * modinv v m - 1 := by
  obtain ⟨he0, he1, hed⟩ := emod_spec v hm
  have hcast : ((emod v m).toNat : Int) = emod v m := Int.toNat_of_nonneg he0
  have hmcast : (m.toNat : Int) = m := Int.toNat_of_nonneg hm.le
  have hfuel : (emod v m).toNat < m.toNat + 1 := by omega
  have h := euclid_spec v m (m.toNat + 1) m.toNat 0 (emod v m).toNat 1 hfuel
    (by simp [hmcast]) (by simpa [hcast] using hed)
  have hgcd : Nat.gcd m.toNat (emod v m).toNat = 1 := by
    have h1 : Int.gcd (m.toNat : Int) ((emod v m).toNat : Int) = Int.gcd v m := by
      rw [hcast, hmcast, emod, Int.gcd_comm]
      simp [Int.gcd_emod]
    rw [gcdAbs_eq] at hg
    rw [← Int.gcd_natCast_natCast, h1, hg]
  rw [hgcd] at h
  obtain ⟨hx0, hx1, hxd⟩ := emod_spec (euclid (m.toNat + 1) m.toNat 0 (emod v m).toNat 1) hm
  refine ⟨hx0, hx1, ?_⟩
  have key : v * modinv v m - 1 = (euclid (m.toNat + 1) m.toNat 0 (emod v m).toNat 1 * v - (1 : Nat))
      - v * (euclid (m.toNat + 1) m.toNat 0 (emod v m).toNat 1 - modinv v m) := by
    push_cast
    ring
  rw [key]
  exact dvd_sub h (hxd.mul_left v)

/-- R11: the inverse is unique. -/
theorem modinv_unique {v m x : Int} (hm : 0 < m) (hg : gcdAbs v m = 1) (h0 : 0 ≤ x) (h1 : x < m) (hd : m ∣ v * x - 1) :
    modinv v m = x := by
  obtain ⟨k0, k1, kd⟩ := modinv_spec hm hg
  have hsub : m ∣ v * (modinv v m - x) := by
    have : v * (modinv v m - x) = (v * modinv v m - 1) - (v * x - 1) := by ring
    rw [this]
    exact dvd_sub kd hd
  have hdiff : m ∣ modinv v m - x := by
    refine Int.dvd_of_dvd_mul_right_of_gcd_one hsub ?_
    rw [Int.gcd_comm, ← gcdAbs_eq, hg]
  have := emod_unique h0 h1 hdiff
  rw [emod, Int.emod_eq_of_lt k0 k1] at this
  exact this

/-! ### prime -/

/-- Trial division from d answers that no number from d up, with its square at most v, divides v. -/
theorem noDivisorFrom_iff (v : Nat) : ∀ (fuel d : Nat), v < fuel + d → 2 ≤ d →
    (noDivisorFrom v fuel d = true ↔ ∀ c, d ≤ c → c * c ≤ v → ¬c ∣ v)
  | 0, d, h, hd => by
    simp only [noDivisorFrom, true_iff]
    intro c hc hcc _
    nlinarith
  | fuel + 1, d, h, hd => by
    by_cases hlt : v < d * d
    · simp only [noDivisorFrom, hlt, if_true, true_iff]
      intro c hc hcc _
      nlinarith
    by_cases hdvd : v % d = 0
    · simp only [noDivisorFrom, hlt, hdvd, if_false, if_true, Bool.false_eq_true, false_iff]
      intro hall
      exact hall d le_rfl (Nat.not_lt.mp hlt) (Nat.dvd_of_mod_eq_zero hdvd)
    · have ih := noDivisorFrom_iff v fuel (d + 1) (by omega) (by omega)
      simp only [noDivisorFrom, hlt, hdvd, if_false, ih]
      constructor
      · intro hall c hc hcc
        rcases Nat.lt_or_ge d c with hdc | hdc
        · exact hall c hdc hcc
        · have : c = d := by omega
          subst this
          exact fun hd' => hdvd (Nat.mod_eq_zero_of_dvd hd')
      · intro hall c hc hcc
        exact hall c (by omega) hcc

/-- Trial division decides primality (R77). -/
theorem isPrime_iff_prime (v : Int) : isPrime v = true ↔ 0 ≤ v ∧ v.toNat.Prime := by
  by_cases h2 : 2 ≤ v
  · have hv : 0 ≤ v := by omega
    have h2' : 2 ≤ v.toNat := by omega
    simp only [isPrime, h2, decide_true, Bool.true_and, hv, true_and]
    rw [noDivisorFrom_iff v.toNat v.toNat 2 (by omega) le_rfl, Nat.prime_def_le_sqrt]
    simp only [h2', true_and, Nat.le_sqrt]
  · have : ¬(0 ≤ v ∧ v.toNat.Prime) := fun ⟨h0, hp⟩ => h2 (by have := hp.two_le; omega)
    simp [isPrime, h2, this]

/-- R10: `prime(v)` is true exactly when v ≥ 2 and v has no divisor in 2..v−1. -/
theorem isPrime_iff (v : Int) : isPrime v = true ↔ 2 ≤ v ∧ ∀ c, 2 ≤ c → c < v → ¬c ∣ v := by
  rw [isPrime_iff_prime]
  constructor
  · rintro ⟨h0, hp⟩
    refine ⟨by have := hp.two_le; omega, fun c h2 hlt hdvd => ?_⟩
    have hc : c.toNat ∣ v.toNat := by
      rw [← Int.natCast_dvd_natCast, Int.toNat_of_nonneg (by omega), Int.toNat_of_nonneg h0]
      exact hdvd
    rcases (Nat.dvd_prime hp).mp hc with h | h <;> omega
  · rintro ⟨h2, hall⟩
    refine ⟨by omega, Nat.prime_def_lt'.mpr ⟨by omega, fun c hc hlt hdvd => ?_⟩⟩
    refine hall c (by omega) (by omega) ?_
    rw [← Int.toNat_of_nonneg (by omega : 0 ≤ v)]
    exact_mod_cast hdvd

end Sys2Proof.Machine
end

