-- ==== Sys2Proof/Laws/Bank.lean ====
section
/-! SUPPORT. The laws of the operand banks: read after write, and mapping. -/

namespace Sys2Proof.Machine

@[simp] theorem Bank.get_set_same {α : Type} (b : Bank α) (r : Reg) (x : α) : (b.set r x).get r = x := by
  cases r <;> rfl

@[simp] theorem Bank.get_set_ne {α : Type} (b : Bank α) (r q : Reg) (x : α) (h : q ≠ r) : (b.set r x).get q = b.get q := by
  cases r <;> cases q <;> first | rfl | exact absurd rfl h

theorem Bank.get_set {α : Type} (b : Bank α) (r q : Reg) (x : α) : (b.set r x).get q = if q = r then x else b.get q := by
  by_cases h : q = r
  · subst h; simp
  · simp [h]

@[simp] theorem Bank.get_map {α β : Type} (f : α → β) (b : Bank α) (r : Reg) : (b.map f).get r = f (b.get r) := by
  cases r <;> rfl

/-- Two banks with the same entries are the same bank. -/
theorem Bank.ext_get {α : Type} {b c : Bank α} (h : ∀ r, b.get r = c.get r) : b = c := by
  cases b; cases c
  have h0 := h .r0; have h1 := h .r1; have h2 := h .r2; have h3 := h .r3
  have h4 := h .r4; have h5 := h .r5; have h6 := h .r6; have h7 := h .r7
  simp only [Bank.get] at h0 h1 h2 h3 h4 h5 h6 h7
  subst h0 h1 h2 h3 h4 h5 h6 h7
  rfl

@[simp] theorem snapshot_get (regs : Bank OpReg) (r : Reg) : (snapshot regs).get r = (regs.get r).operand := by
  simp [snapshot]

@[simp] theorem OpReg.operand_ofResult (v : Nat) : (OpReg.ofResult v).operand = some (v : Int) := by
  simp [OpReg.operand, OpReg.ofResult, OpReg.value]

/-- What SNAP holds of a register is its value exactly when it is written (R31, R92). -/
theorem OpReg.operand_eq_some {o : OpReg} {v : Int} : o.operand = some v ↔ o.valid = true ∧ o.value = v := by
  unfold OpReg.operand
  split <;> simp_all

/-- The magnitude of a register's value is MAG (R30). -/
@[simp] theorem OpReg.natAbs_value (o : OpReg) : o.value.natAbs = o.mag := by
  unfold OpReg.value
  split <;> simp

end Sys2Proof.Machine
end

