-- ==== Sys2Proof/Laws/Encoding.lean ====
section
/-! SUPPORT. A command word and its format C fields determine each other (30_encoding.md R57), and a register and its index do (R58). -/

namespace Sys2Proof

/-- The fields of the word made of given fields are those fields (R57). -/
@[simp] theorem FormatC.ofWord_toWord (c : FormatC) : FormatC.ofWord c.toWord = c := by
  obtain ⟨op, rd, z0, ra, z1, rb, z2, rc, z3, f, z4⟩ := c
  simp only [FormatC.ofWord, FormatC.toWord, FormatC.mk.injEq]
  refine ⟨?_, ?_, ?_, ?_, ?_, ?_, ?_, ?_, ?_, ?_, ?_⟩ <;>
  · apply BitVec.eq_of_getLsbD_eq
    intro i hi
    simp only [BitVec.getLsbD_extractLsb', BitVec.getLsbD_append]
    interval_cases i <;> simp

/-- The eleven fields of R57 cover the word. -/
@[simp] theorem FormatC.toWord_ofWord (w : Word) : (FormatC.ofWord w).toWord = w := by
  simp only [FormatC.ofWord, FormatC.toWord]
  apply BitVec.eq_of_getLsbD_eq
  intro i hi
  simp only [BitVec.getLsbD_extractLsb', BitVec.getLsbD_append]
  interval_cases i <;> simp

@[simp] theorem Reg.ofBits_toBits (r : Reg) : Reg.ofBits r.toBits = r := by
  cases r <;> rfl

@[simp] theorem Reg.toBits_ofBits (b : BitVec 3) : (Reg.ofBits b).toBits = b := by
  revert b; decide

/-- The fields of an instruction's word are the instruction's fields. -/
@[simp] theorem FormatC.ofWord_encode (i : Instr) : FormatC.ofWord (encode i) = i.format := by
  simp [encode]

end Sys2Proof
end

