-- ==== Sys2Proof/Laws/State.lean ====
section
/-! SUPPORT. One lemma for each field of State and each update (what the field becomes, or that the update leaves it), so that no proof unfolds a record update. -/

namespace Sys2Proof.Machine

/-! ### Issue in an idle engine (R92) -/

@[simp] theorem State.accept_params (w : Word) (s : State) : (s.accept w).params = s.params := rfl
@[simp] theorem State.accept_ie (w : Word) (s : State) : (s.accept w).ie = s.ie := rfl
@[simp] theorem State.accept_done (w : Word) (s : State) : (s.accept w).done = false := rfl
@[simp] theorem State.accept_result (w : Word) (s : State) : (s.accept w).result = false := rfl
@[simp] theorem State.accept_ovr (w : Word) (s : State) : (s.accept w).ovr = s.ovr := rfl
@[simp] theorem State.accept_wbusy (w : Word) (s : State) : (s.accept w).wbusy = s.wbusy := rfl
@[simp] theorem State.accept_errcode (w : Word) (s : State) : (s.accept w).errcode = .noError := rfl
@[simp] theorem State.accept_errsrc (w : Word) (s : State) : (s.accept w).errsrc = .noSlot := rfl
@[simp] theorem State.accept_lastcmd (w : Word) (s : State) : (s.accept w).lastcmd = w := rfl
@[simp] theorem State.accept_regs (w : Word) (s : State) : (s.accept w).regs = s.regs := rfl
@[simp] theorem State.accept_keyN (w : Word) (s : State) : (s.accept w).keyN = s.keyN := rfl
@[simp] theorem State.accept_keyD (w : Word) (s : State) : (s.accept w).keyD = s.keyD := rfl
@[simp] theorem State.accept_keyE (w : Word) (s : State) : (s.accept w).keyE = s.keyE := rfl
@[simp] theorem State.accept_keyv (w : Word) (s : State) : (s.accept w).keyv = s.keyv := rfl
@[simp] theorem State.accept_pending (w : Word) (s : State) : (s.accept w).pending = some w := rfl
@[simp] theorem State.accept_snap (w : Word) (s : State) : (s.accept w).snap = snapshot s.regs := rfl
@[simp] theorem State.accept_host (w : Word) (s : State) : (s.accept w).host = s.host := rfl
@[simp] theorem State.accept_turns (w : Word) (s : State) : (s.accept w).turns = s.turns := rfl
@[simp] theorem State.accept_reads (w : Word) (s : State) : (s.accept w).reads = s.reads := rfl
@[simp] theorem State.accept_draws (w : Word) (s : State) : (s.accept w).draws = s.draws := rfl

/-! ### The status of a completion (R93) -/

@[simp] theorem State.finish_params (res : Bool) (c : ErrCode) (src : Slot) (s : State) : (s.finish res c src).params = s.params := rfl
@[simp] theorem State.finish_ie (res : Bool) (c : ErrCode) (src : Slot) (s : State) : (s.finish res c src).ie = s.ie := rfl
@[simp] theorem State.finish_done (res : Bool) (c : ErrCode) (src : Slot) (s : State) : (s.finish res c src).done = true := rfl
@[simp] theorem State.finish_result (res : Bool) (c : ErrCode) (src : Slot) (s : State) : (s.finish res c src).result = res := rfl
@[simp] theorem State.finish_ovr (res : Bool) (c : ErrCode) (src : Slot) (s : State) : (s.finish res c src).ovr = s.ovr := rfl
@[simp] theorem State.finish_wbusy (res : Bool) (c : ErrCode) (src : Slot) (s : State) : (s.finish res c src).wbusy = s.wbusy := rfl
@[simp] theorem State.finish_errcode (res : Bool) (c : ErrCode) (src : Slot) (s : State) : (s.finish res c src).errcode = c := rfl
@[simp] theorem State.finish_errsrc (res : Bool) (c : ErrCode) (src : Slot) (s : State) : (s.finish res c src).errsrc = src := rfl
@[simp] theorem State.finish_lastcmd (res : Bool) (c : ErrCode) (src : Slot) (s : State) : (s.finish res c src).lastcmd = s.lastcmd := rfl
@[simp] theorem State.finish_regs (res : Bool) (c : ErrCode) (src : Slot) (s : State) : (s.finish res c src).regs = s.regs := rfl
@[simp] theorem State.finish_keyN (res : Bool) (c : ErrCode) (src : Slot) (s : State) : (s.finish res c src).keyN = s.keyN := rfl
@[simp] theorem State.finish_keyD (res : Bool) (c : ErrCode) (src : Slot) (s : State) : (s.finish res c src).keyD = s.keyD := rfl
@[simp] theorem State.finish_keyE (res : Bool) (c : ErrCode) (src : Slot) (s : State) : (s.finish res c src).keyE = s.keyE := rfl
@[simp] theorem State.finish_keyv (res : Bool) (c : ErrCode) (src : Slot) (s : State) : (s.finish res c src).keyv = s.keyv := rfl
@[simp] theorem State.finish_pending (res : Bool) (c : ErrCode) (src : Slot) (s : State) : (s.finish res c src).pending = none := rfl
@[simp] theorem State.finish_snap (res : Bool) (c : ErrCode) (src : Slot) (s : State) : (s.finish res c src).snap = s.snap := rfl
@[simp] theorem State.finish_host (res : Bool) (c : ErrCode) (src : Slot) (s : State) : (s.finish res c src).host = s.host := rfl
@[simp] theorem State.finish_turns (res : Bool) (c : ErrCode) (src : Slot) (s : State) : (s.finish res c src).turns = s.turns := rfl
@[simp] theorem State.finish_reads (res : Bool) (c : ErrCode) (src : Slot) (s : State) : (s.finish res c src).reads = s.reads := rfl
@[simp] theorem State.finish_draws (res : Bool) (c : ErrCode) (src : Slot) (s : State) : (s.finish res c src).draws = s.draws := rfl

/-! ### A failed completion (R93) -/

@[simp] theorem State.raise_params (c : ErrCode) (src : Slot) (s : State) : (s.raise c src).params = s.params := rfl
@[simp] theorem State.raise_ie (c : ErrCode) (src : Slot) (s : State) : (s.raise c src).ie = s.ie := rfl
@[simp] theorem State.raise_done (c : ErrCode) (src : Slot) (s : State) : (s.raise c src).done = true := rfl
@[simp] theorem State.raise_result (c : ErrCode) (src : Slot) (s : State) : (s.raise c src).result = false := rfl
@[simp] theorem State.raise_ovr (c : ErrCode) (src : Slot) (s : State) : (s.raise c src).ovr = s.ovr := rfl
@[simp] theorem State.raise_wbusy (c : ErrCode) (src : Slot) (s : State) : (s.raise c src).wbusy = s.wbusy := rfl
@[simp] theorem State.raise_errcode (c : ErrCode) (src : Slot) (s : State) : (s.raise c src).errcode = c := rfl
@[simp] theorem State.raise_errsrc (c : ErrCode) (src : Slot) (s : State) : (s.raise c src).errsrc = src := rfl
@[simp] theorem State.raise_lastcmd (c : ErrCode) (src : Slot) (s : State) : (s.raise c src).lastcmd = s.lastcmd := rfl
@[simp] theorem State.raise_regs (c : ErrCode) (src : Slot) (s : State) : (s.raise c src).regs = s.regs := rfl
@[simp] theorem State.raise_keyN (c : ErrCode) (src : Slot) (s : State) : (s.raise c src).keyN = s.keyN := rfl
@[simp] theorem State.raise_keyD (c : ErrCode) (src : Slot) (s : State) : (s.raise c src).keyD = s.keyD := rfl
@[simp] theorem State.raise_keyE (c : ErrCode) (src : Slot) (s : State) : (s.raise c src).keyE = s.keyE := rfl
@[simp] theorem State.raise_keyv (c : ErrCode) (src : Slot) (s : State) : (s.raise c src).keyv = s.keyv := rfl
@[simp] theorem State.raise_pending (c : ErrCode) (src : Slot) (s : State) : (s.raise c src).pending = none := rfl
@[simp] theorem State.raise_snap (c : ErrCode) (src : Slot) (s : State) : (s.raise c src).snap = s.snap := rfl
@[simp] theorem State.raise_host (c : ErrCode) (src : Slot) (s : State) : (s.raise c src).host = s.host := rfl
@[simp] theorem State.raise_turns (c : ErrCode) (src : Slot) (s : State) : (s.raise c src).turns = s.turns := rfl
@[simp] theorem State.raise_reads (c : ErrCode) (src : Slot) (s : State) : (s.raise c src).reads = s.reads := rfl
@[simp] theorem State.raise_draws (c : ErrCode) (src : Slot) (s : State) : (s.raise c src).draws = s.draws := rfl

/-! ### A write to STATUS (R20) -/

@[simp] theorem State.writeStatus_params (w : Word) (s : State) : (s.writeStatus w).params = s.params := rfl
@[simp] theorem State.writeStatus_ie (w : Word) (s : State) : (s.writeStatus w).ie = s.ie := rfl
@[simp] theorem State.writeStatus_done (w : Word) (s : State) : (s.writeStatus w).done = (s.done && !w.getLsbD 1) := rfl
@[simp] theorem State.writeStatus_result (w : Word) (s : State) : (s.writeStatus w).result = s.result := rfl
@[simp] theorem State.writeStatus_ovr (w : Word) (s : State) : (s.writeStatus w).ovr = (s.ovr && !w.getLsbD 5) := rfl
@[simp] theorem State.writeStatus_wbusy (w : Word) (s : State) : (s.writeStatus w).wbusy = (s.wbusy && !w.getLsbD 6) := rfl
@[simp] theorem State.writeStatus_errcode (w : Word) (s : State) : (s.writeStatus w).errcode = s.errcode := rfl
@[simp] theorem State.writeStatus_errsrc (w : Word) (s : State) : (s.writeStatus w).errsrc = s.errsrc := rfl
@[simp] theorem State.writeStatus_lastcmd (w : Word) (s : State) : (s.writeStatus w).lastcmd = s.lastcmd := rfl
@[simp] theorem State.writeStatus_regs (w : Word) (s : State) : (s.writeStatus w).regs = s.regs := rfl
@[simp] theorem State.writeStatus_keyN (w : Word) (s : State) : (s.writeStatus w).keyN = s.keyN := rfl
@[simp] theorem State.writeStatus_keyD (w : Word) (s : State) : (s.writeStatus w).keyD = s.keyD := rfl
@[simp] theorem State.writeStatus_keyE (w : Word) (s : State) : (s.writeStatus w).keyE = s.keyE := rfl
@[simp] theorem State.writeStatus_keyv (w : Word) (s : State) : (s.writeStatus w).keyv = s.keyv := rfl
@[simp] theorem State.writeStatus_pending (w : Word) (s : State) : (s.writeStatus w).pending = s.pending := rfl
@[simp] theorem State.writeStatus_snap (w : Word) (s : State) : (s.writeStatus w).snap = s.snap := rfl
@[simp] theorem State.writeStatus_host (w : Word) (s : State) : (s.writeStatus w).host = s.host := rfl
@[simp] theorem State.writeStatus_turns (w : Word) (s : State) : (s.writeStatus w).turns = s.turns := rfl
@[simp] theorem State.writeStatus_reads (w : Word) (s : State) : (s.writeStatus w).reads = s.reads := rfl
@[simp] theorem State.writeStatus_draws (w : Word) (s : State) : (s.writeStatus w).draws = s.draws := rfl

/-! ### A write to CTRL (R18) -/

@[simp] theorem State.writeCtrl_params (w : Word) (s : State) : (s.writeCtrl w).params = s.params := rfl
@[simp] theorem State.writeCtrl_ie (w : Word) (s : State) : (s.writeCtrl w).ie = w.getLsbD 0 := rfl
@[simp] theorem State.writeCtrl_done (w : Word) (s : State) : (s.writeCtrl w).done = s.done := rfl
@[simp] theorem State.writeCtrl_result (w : Word) (s : State) : (s.writeCtrl w).result = s.result := rfl
@[simp] theorem State.writeCtrl_ovr (w : Word) (s : State) : (s.writeCtrl w).ovr = s.ovr := rfl
@[simp] theorem State.writeCtrl_wbusy (w : Word) (s : State) : (s.writeCtrl w).wbusy = s.wbusy := rfl
@[simp] theorem State.writeCtrl_errcode (w : Word) (s : State) : (s.writeCtrl w).errcode = s.errcode := rfl
@[simp] theorem State.writeCtrl_errsrc (w : Word) (s : State) : (s.writeCtrl w).errsrc = s.errsrc := rfl
@[simp] theorem State.writeCtrl_lastcmd (w : Word) (s : State) : (s.writeCtrl w).lastcmd = s.lastcmd := rfl
@[simp] theorem State.writeCtrl_regs (w : Word) (s : State) : (s.writeCtrl w).regs = s.regs := rfl
@[simp] theorem State.writeCtrl_keyN (w : Word) (s : State) : (s.writeCtrl w).keyN = s.keyN := rfl
@[simp] theorem State.writeCtrl_keyD (w : Word) (s : State) : (s.writeCtrl w).keyD = s.keyD := rfl
@[simp] theorem State.writeCtrl_keyE (w : Word) (s : State) : (s.writeCtrl w).keyE = s.keyE := rfl
@[simp] theorem State.writeCtrl_keyv (w : Word) (s : State) : (s.writeCtrl w).keyv = s.keyv := rfl
@[simp] theorem State.writeCtrl_pending (w : Word) (s : State) : (s.writeCtrl w).pending = s.pending := rfl
@[simp] theorem State.writeCtrl_snap (w : Word) (s : State) : (s.writeCtrl w).snap = s.snap := rfl
@[simp] theorem State.writeCtrl_host (w : Word) (s : State) : (s.writeCtrl w).host = s.host := rfl
@[simp] theorem State.writeCtrl_turns (w : Word) (s : State) : (s.writeCtrl w).turns = s.turns := rfl
@[simp] theorem State.writeCtrl_reads (w : Word) (s : State) : (s.writeCtrl w).reads = s.reads := rfl
@[simp] theorem State.writeCtrl_draws (w : Word) (s : State) : (s.writeCtrl w).draws = s.draws := rfl

/-! ### A host read (R49) -/

@[simp] theorem State.busRead_params (l : Loc) (s : State) : (s.busRead l).params = s.params := rfl
@[simp] theorem State.busRead_ie (l : Loc) (s : State) : (s.busRead l).ie = s.ie := rfl
@[simp] theorem State.busRead_done (l : Loc) (s : State) : (s.busRead l).done = s.done := rfl
@[simp] theorem State.busRead_result (l : Loc) (s : State) : (s.busRead l).result = s.result := rfl
@[simp] theorem State.busRead_ovr (l : Loc) (s : State) : (s.busRead l).ovr = s.ovr := rfl
@[simp] theorem State.busRead_wbusy (l : Loc) (s : State) : (s.busRead l).wbusy = s.wbusy := rfl
@[simp] theorem State.busRead_errcode (l : Loc) (s : State) : (s.busRead l).errcode = s.errcode := rfl
@[simp] theorem State.busRead_errsrc (l : Loc) (s : State) : (s.busRead l).errsrc = s.errsrc := rfl
@[simp] theorem State.busRead_lastcmd (l : Loc) (s : State) : (s.busRead l).lastcmd = s.lastcmd := rfl
@[simp] theorem State.busRead_regs (l : Loc) (s : State) : (s.busRead l).regs = s.regs := rfl
@[simp] theorem State.busRead_keyN (l : Loc) (s : State) : (s.busRead l).keyN = s.keyN := rfl
@[simp] theorem State.busRead_keyD (l : Loc) (s : State) : (s.busRead l).keyD = s.keyD := rfl
@[simp] theorem State.busRead_keyE (l : Loc) (s : State) : (s.busRead l).keyE = s.keyE := rfl
@[simp] theorem State.busRead_keyv (l : Loc) (s : State) : (s.busRead l).keyv = s.keyv := rfl
@[simp] theorem State.busRead_pending (l : Loc) (s : State) : (s.busRead l).pending = s.pending := rfl
@[simp] theorem State.busRead_snap (l : Loc) (s : State) : (s.busRead l).snap = s.snap := rfl
@[simp] theorem State.busRead_host (l : Loc) (s : State) : (s.busRead l).host = s.host := rfl
@[simp] theorem State.busRead_turns (l : Loc) (s : State) : (s.busRead l).turns = s.turns := rfl
@[simp] theorem State.busRead_reads (l : Loc) (s : State) : (s.busRead l).reads = s.readValue l :: s.reads := rfl
@[simp] theorem State.busRead_draws (l : Loc) (s : State) : (s.busRead l).draws = if s.drawsOn l then s.draws + 1 else s.draws := rfl

/-! ### A result write (R32) -/

@[simp] theorem State.writeDst_params (dst : Option (Reg × Nat)) (s : State) : (s.writeDst dst).params = s.params := by cases dst <;> rfl
@[simp] theorem State.writeDst_ie (dst : Option (Reg × Nat)) (s : State) : (s.writeDst dst).ie = s.ie := by cases dst <;> rfl
@[simp] theorem State.writeDst_done (dst : Option (Reg × Nat)) (s : State) : (s.writeDst dst).done = s.done := by cases dst <;> rfl
@[simp] theorem State.writeDst_result (dst : Option (Reg × Nat)) (s : State) : (s.writeDst dst).result = s.result := by cases dst <;> rfl
@[simp] theorem State.writeDst_ovr (dst : Option (Reg × Nat)) (s : State) : (s.writeDst dst).ovr = s.ovr := by cases dst <;> rfl
@[simp] theorem State.writeDst_wbusy (dst : Option (Reg × Nat)) (s : State) : (s.writeDst dst).wbusy = s.wbusy := by cases dst <;> rfl
@[simp] theorem State.writeDst_errcode (dst : Option (Reg × Nat)) (s : State) : (s.writeDst dst).errcode = s.errcode := by cases dst <;> rfl
@[simp] theorem State.writeDst_errsrc (dst : Option (Reg × Nat)) (s : State) : (s.writeDst dst).errsrc = s.errsrc := by cases dst <;> rfl
@[simp] theorem State.writeDst_lastcmd (dst : Option (Reg × Nat)) (s : State) : (s.writeDst dst).lastcmd = s.lastcmd := by cases dst <;> rfl
@[simp] theorem State.writeDst_keyN (dst : Option (Reg × Nat)) (s : State) : (s.writeDst dst).keyN = s.keyN := by cases dst <;> rfl
@[simp] theorem State.writeDst_keyD (dst : Option (Reg × Nat)) (s : State) : (s.writeDst dst).keyD = s.keyD := by cases dst <;> rfl
@[simp] theorem State.writeDst_keyE (dst : Option (Reg × Nat)) (s : State) : (s.writeDst dst).keyE = s.keyE := by cases dst <;> rfl
@[simp] theorem State.writeDst_keyv (dst : Option (Reg × Nat)) (s : State) : (s.writeDst dst).keyv = s.keyv := by cases dst <;> rfl
@[simp] theorem State.writeDst_pending (dst : Option (Reg × Nat)) (s : State) : (s.writeDst dst).pending = s.pending := by cases dst <;> rfl
@[simp] theorem State.writeDst_snap (dst : Option (Reg × Nat)) (s : State) : (s.writeDst dst).snap = s.snap := by cases dst <;> rfl
@[simp] theorem State.writeDst_host (dst : Option (Reg × Nat)) (s : State) : (s.writeDst dst).host = s.host := by cases dst <;> rfl
@[simp] theorem State.writeDst_turns (dst : Option (Reg × Nat)) (s : State) : (s.writeDst dst).turns = s.turns := by cases dst <;> rfl
@[simp] theorem State.writeDst_reads (dst : Option (Reg × Nat)) (s : State) : (s.writeDst dst).reads = s.reads := by cases dst <;> rfl
@[simp] theorem State.writeDst_draws (dst : Option (Reg × Nat)) (s : State) : (s.writeDst dst).draws = s.draws := by cases dst <;> rfl

@[simp] theorem State.writeDst_none_regs (s : State) : (s.writeDst none).regs = s.regs := rfl
@[simp] theorem State.writeDst_some_regs (rd : Reg) (v : Nat) (s : State) :
    (s.writeDst (some (rd, v))).regs = s.regs.set rd (.ofResult v) := rfl

/-! ### New key state (R93) -/

@[simp] theorem State.writeKey_params (key : Option KeyMaterial) (s : State) : (s.writeKey key).params = s.params := by cases key <;> rfl
@[simp] theorem State.writeKey_ie (key : Option KeyMaterial) (s : State) : (s.writeKey key).ie = s.ie := by cases key <;> rfl
@[simp] theorem State.writeKey_done (key : Option KeyMaterial) (s : State) : (s.writeKey key).done = s.done := by cases key <;> rfl
@[simp] theorem State.writeKey_result (key : Option KeyMaterial) (s : State) : (s.writeKey key).result = s.result := by cases key <;> rfl
@[simp] theorem State.writeKey_ovr (key : Option KeyMaterial) (s : State) : (s.writeKey key).ovr = s.ovr := by cases key <;> rfl
@[simp] theorem State.writeKey_wbusy (key : Option KeyMaterial) (s : State) : (s.writeKey key).wbusy = s.wbusy := by cases key <;> rfl
@[simp] theorem State.writeKey_errcode (key : Option KeyMaterial) (s : State) : (s.writeKey key).errcode = s.errcode := by cases key <;> rfl
@[simp] theorem State.writeKey_errsrc (key : Option KeyMaterial) (s : State) : (s.writeKey key).errsrc = s.errsrc := by cases key <;> rfl
@[simp] theorem State.writeKey_lastcmd (key : Option KeyMaterial) (s : State) : (s.writeKey key).lastcmd = s.lastcmd := by cases key <;> rfl
@[simp] theorem State.writeKey_regs (key : Option KeyMaterial) (s : State) : (s.writeKey key).regs = s.regs := by cases key <;> rfl
@[simp] theorem State.writeKey_pending (key : Option KeyMaterial) (s : State) : (s.writeKey key).pending = s.pending := by cases key <;> rfl
@[simp] theorem State.writeKey_snap (key : Option KeyMaterial) (s : State) : (s.writeKey key).snap = s.snap := by cases key <;> rfl
@[simp] theorem State.writeKey_host (key : Option KeyMaterial) (s : State) : (s.writeKey key).host = s.host := by cases key <;> rfl
@[simp] theorem State.writeKey_turns (key : Option KeyMaterial) (s : State) : (s.writeKey key).turns = s.turns := by cases key <;> rfl
@[simp] theorem State.writeKey_reads (key : Option KeyMaterial) (s : State) : (s.writeKey key).reads = s.reads := by cases key <;> rfl
@[simp] theorem State.writeKey_draws (key : Option KeyMaterial) (s : State) : (s.writeKey key).draws = s.draws := by cases key <;> rfl

@[simp] theorem State.writeKey_none_keyN (s : State) : (s.writeKey none).keyN = s.keyN := rfl
@[simp] theorem State.writeKey_none_keyD (s : State) : (s.writeKey none).keyD = s.keyD := rfl
@[simp] theorem State.writeKey_none_keyE (s : State) : (s.writeKey none).keyE = s.keyE := rfl
@[simp] theorem State.writeKey_none_keyv (s : State) : (s.writeKey none).keyv = s.keyv := rfl
@[simp] theorem State.writeKey_some_keyN (k : KeyMaterial) (s : State) : (s.writeKey (some k)).keyN = k.n := rfl
@[simp] theorem State.writeKey_some_keyD (k : KeyMaterial) (s : State) : (s.writeKey (some k)).keyD = k.d := rfl
@[simp] theorem State.writeKey_some_keyE (k : KeyMaterial) (s : State) : (s.writeKey (some k)).keyE = k.e := rfl
@[simp] theorem State.writeKey_some_keyv (k : KeyMaterial) (s : State) : (s.writeKey (some k)).keyv = true := rfl

/-! ### A write in the operand window (R26, R28, R29) -/

@[simp] theorem State.writeWindow_params (r : Reg) (f : OpReg → OpReg) (s : State) : (s.writeWindow r f).params = s.params := by
  unfold State.writeWindow; split <;> rfl
@[simp] theorem State.writeWindow_ie (r : Reg) (f : OpReg → OpReg) (s : State) : (s.writeWindow r f).ie = s.ie := by
  unfold State.writeWindow; split <;> rfl
@[simp] theorem State.writeWindow_done (r : Reg) (f : OpReg → OpReg) (s : State) : (s.writeWindow r f).done = s.done := by
  unfold State.writeWindow; split <;> rfl
@[simp] theorem State.writeWindow_result (r : Reg) (f : OpReg → OpReg) (s : State) : (s.writeWindow r f).result = s.result := by
  unfold State.writeWindow; split <;> rfl
@[simp] theorem State.writeWindow_ovr (r : Reg) (f : OpReg → OpReg) (s : State) : (s.writeWindow r f).ovr = s.ovr := by
  unfold State.writeWindow; split <;> rfl
@[simp] theorem State.writeWindow_errcode (r : Reg) (f : OpReg → OpReg) (s : State) : (s.writeWindow r f).errcode = s.errcode := by
  unfold State.writeWindow; split <;> rfl
@[simp] theorem State.writeWindow_errsrc (r : Reg) (f : OpReg → OpReg) (s : State) : (s.writeWindow r f).errsrc = s.errsrc := by
  unfold State.writeWindow; split <;> rfl
@[simp] theorem State.writeWindow_lastcmd (r : Reg) (f : OpReg → OpReg) (s : State) : (s.writeWindow r f).lastcmd = s.lastcmd := by
  unfold State.writeWindow; split <;> rfl
@[simp] theorem State.writeWindow_keyN (r : Reg) (f : OpReg → OpReg) (s : State) : (s.writeWindow r f).keyN = s.keyN := by
  unfold State.writeWindow; split <;> rfl
@[simp] theorem State.writeWindow_keyD (r : Reg) (f : OpReg → OpReg) (s : State) : (s.writeWindow r f).keyD = s.keyD := by
  unfold State.writeWindow; split <;> rfl
@[simp] theorem State.writeWindow_keyE (r : Reg) (f : OpReg → OpReg) (s : State) : (s.writeWindow r f).keyE = s.keyE := by
  unfold State.writeWindow; split <;> rfl
@[simp] theorem State.writeWindow_keyv (r : Reg) (f : OpReg → OpReg) (s : State) : (s.writeWindow r f).keyv = s.keyv := by
  unfold State.writeWindow; split <;> rfl
@[simp] theorem State.writeWindow_pending (r : Reg) (f : OpReg → OpReg) (s : State) : (s.writeWindow r f).pending = s.pending := by
  unfold State.writeWindow; split <;> rfl
@[simp] theorem State.writeWindow_snap (r : Reg) (f : OpReg → OpReg) (s : State) : (s.writeWindow r f).snap = s.snap := by
  unfold State.writeWindow; split <;> rfl
@[simp] theorem State.writeWindow_host (r : Reg) (f : OpReg → OpReg) (s : State) : (s.writeWindow r f).host = s.host := by
  unfold State.writeWindow; split <;> rfl
@[simp] theorem State.writeWindow_turns (r : Reg) (f : OpReg → OpReg) (s : State) : (s.writeWindow r f).turns = s.turns := by
  unfold State.writeWindow; split <;> rfl
@[simp] theorem State.writeWindow_reads (r : Reg) (f : OpReg → OpReg) (s : State) : (s.writeWindow r f).reads = s.reads := by
  unfold State.writeWindow; split <;> rfl
@[simp] theorem State.writeWindow_draws (r : Reg) (f : OpReg → OpReg) (s : State) : (s.writeWindow r f).draws = s.draws := by
  unfold State.writeWindow; split <;> rfl

/-! ### A write to CMD (R92) -/

@[simp] theorem State.issue_params (w : Word) (s : State) : (s.issue w).params = s.params := by
  unfold State.issue; split <;> rfl
@[simp] theorem State.issue_ie (w : Word) (s : State) : (s.issue w).ie = s.ie := by
  unfold State.issue; split <;> rfl
@[simp] theorem State.issue_wbusy (w : Word) (s : State) : (s.issue w).wbusy = s.wbusy := by
  unfold State.issue; split <;> rfl
@[simp] theorem State.issue_regs (w : Word) (s : State) : (s.issue w).regs = s.regs := by
  unfold State.issue; split <;> rfl
@[simp] theorem State.issue_keyN (w : Word) (s : State) : (s.issue w).keyN = s.keyN := by
  unfold State.issue; split <;> rfl
@[simp] theorem State.issue_keyD (w : Word) (s : State) : (s.issue w).keyD = s.keyD := by
  unfold State.issue; split <;> rfl
@[simp] theorem State.issue_keyE (w : Word) (s : State) : (s.issue w).keyE = s.keyE := by
  unfold State.issue; split <;> rfl
@[simp] theorem State.issue_keyv (w : Word) (s : State) : (s.issue w).keyv = s.keyv := by
  unfold State.issue; split <;> rfl
@[simp] theorem State.issue_host (w : Word) (s : State) : (s.issue w).host = s.host := by
  unfold State.issue; split <;> rfl
@[simp] theorem State.issue_turns (w : Word) (s : State) : (s.issue w).turns = s.turns := by
  unfold State.issue; split <;> rfl
@[simp] theorem State.issue_reads (w : Word) (s : State) : (s.issue w).reads = s.reads := by
  unfold State.issue; split <;> rfl
@[simp] theorem State.issue_draws (w : Word) (s : State) : (s.issue w).draws = s.draws := by
  unfold State.issue; split <;> rfl

/-! ### The reset event (R107) -/

@[simp] theorem State.resetEvent_params (s : State) : (s.resetEvent).params = s.params := rfl
@[simp] theorem State.resetEvent_ie (s : State) : (s.resetEvent).ie = false := rfl
@[simp] theorem State.resetEvent_done (s : State) : (s.resetEvent).done = false := rfl
@[simp] theorem State.resetEvent_result (s : State) : (s.resetEvent).result = false := rfl
@[simp] theorem State.resetEvent_ovr (s : State) : (s.resetEvent).ovr = false := rfl
@[simp] theorem State.resetEvent_wbusy (s : State) : (s.resetEvent).wbusy = false := rfl
@[simp] theorem State.resetEvent_errcode (s : State) : (s.resetEvent).errcode = .noError := rfl
@[simp] theorem State.resetEvent_errsrc (s : State) : (s.resetEvent).errsrc = .noSlot := rfl
@[simp] theorem State.resetEvent_lastcmd (s : State) : (s.resetEvent).lastcmd = 0#32 := rfl
@[simp] theorem State.resetEvent_keyv (s : State) : (s.resetEvent).keyv = false := rfl
@[simp] theorem State.resetEvent_pending (s : State) : (s.resetEvent).pending = none := rfl
@[simp] theorem State.resetEvent_host (s : State) : (s.resetEvent).host = s.host := rfl
@[simp] theorem State.resetEvent_turns (s : State) : (s.resetEvent).turns = s.turns := rfl
@[simp] theorem State.resetEvent_reads (s : State) : (s.resetEvent).reads = s.reads := rfl

/-! ### Whose turn it is (R9) -/

/-- Taking a turn changes nothing but the list of turns. -/
theorem State.takeTurn_snd (s : State) : s.takeTurn.2 = { s with turns := s.turns.tail } := by
  unfold State.takeTurn
  cases h : s.turns with
  | nil => cases s; simp_all
  | cons t ts => rfl

@[simp] theorem State.takeTurn_params (s : State) : s.takeTurn.2.params = s.params := by
  rw [State.takeTurn_snd]
@[simp] theorem State.takeTurn_ie (s : State) : s.takeTurn.2.ie = s.ie := by
  rw [State.takeTurn_snd]
@[simp] theorem State.takeTurn_done (s : State) : s.takeTurn.2.done = s.done := by
  rw [State.takeTurn_snd]
@[simp] theorem State.takeTurn_result (s : State) : s.takeTurn.2.result = s.result := by
  rw [State.takeTurn_snd]
@[simp] theorem State.takeTurn_ovr (s : State) : s.takeTurn.2.ovr = s.ovr := by
  rw [State.takeTurn_snd]
@[simp] theorem State.takeTurn_wbusy (s : State) : s.takeTurn.2.wbusy = s.wbusy := by
  rw [State.takeTurn_snd]
@[simp] theorem State.takeTurn_errcode (s : State) : s.takeTurn.2.errcode = s.errcode := by
  rw [State.takeTurn_snd]
@[simp] theorem State.takeTurn_errsrc (s : State) : s.takeTurn.2.errsrc = s.errsrc := by
  rw [State.takeTurn_snd]
@[simp] theorem State.takeTurn_lastcmd (s : State) : s.takeTurn.2.lastcmd = s.lastcmd := by
  rw [State.takeTurn_snd]
@[simp] theorem State.takeTurn_regs (s : State) : s.takeTurn.2.regs = s.regs := by
  rw [State.takeTurn_snd]
@[simp] theorem State.takeTurn_keyN (s : State) : s.takeTurn.2.keyN = s.keyN := by
  rw [State.takeTurn_snd]
@[simp] theorem State.takeTurn_keyD (s : State) : s.takeTurn.2.keyD = s.keyD := by
  rw [State.takeTurn_snd]
@[simp] theorem State.takeTurn_keyE (s : State) : s.takeTurn.2.keyE = s.keyE := by
  rw [State.takeTurn_snd]
@[simp] theorem State.takeTurn_keyv (s : State) : s.takeTurn.2.keyv = s.keyv := by
  rw [State.takeTurn_snd]
@[simp] theorem State.takeTurn_pending (s : State) : s.takeTurn.2.pending = s.pending := by
  rw [State.takeTurn_snd]
@[simp] theorem State.takeTurn_snap (s : State) : s.takeTurn.2.snap = s.snap := by
  rw [State.takeTurn_snd]
@[simp] theorem State.takeTurn_host (s : State) : s.takeTurn.2.host = s.host := by
  rw [State.takeTurn_snd]
@[simp] theorem State.takeTurn_turns (s : State) : s.takeTurn.2.turns = s.turns.tail := by
  rw [State.takeTurn_snd]
@[simp] theorem State.takeTurn_reads (s : State) : s.takeTurn.2.reads = s.reads := by
  rw [State.takeTurn_snd]
@[simp] theorem State.takeTurn_draws (s : State) : s.takeTurn.2.draws = s.draws := by
  rw [State.takeTurn_snd]

@[simp] theorem State.takeTurn_cons (s : State) (t : Turn) (ts : List Turn) (h : s.turns = t :: ts) : s.takeTurn.1 = t := by
  simp [State.takeTurn, h]

/-- With no turn left the engine completes a pending command (R116). -/
theorem State.takeTurn_nil_busy (s : State) (h : s.turns = []) (hb : s.busy = true) : s.takeTurn.1 = .engine := by
  simp [State.takeTurn, h, hb]

/-- With no turn left and nothing pending, the host goes on. -/
theorem State.takeTurn_nil_idle (s : State) (h : s.turns = []) (hb : s.busy = false) : s.takeTurn.1 = .host := by
  simp [State.takeTurn, h, hb]

end Sys2Proof.Machine
end

