-- ==== Sys2Proof/Laws/Exec.lean ====
section
/-! SUPPORT. What a completion and a command can do (60_exceptions.md R93 to R95): the lemmas later proofs cite instead of unfolding `exec`. -/

namespace Sys2Proof.Machine

/-! ### Completion -/

/-- A completion without new key state that succeeds gives the shape `succeeded` (R93). -/
theorem State.completeOk_succeeded (dst : Option (Reg × Nat)) (res : Bool) (s : State) :
    s.completeOk dst res none = s.succeeded (s.writeDst dst).regs res := by
  cases dst <;> rfl

/-- A completion that fails gives the shape `failed` (R93, R95). -/
theorem State.raise_failed (c : ErrCode) (src : Slot) (s : State) : s.raise c src = s.failed c src := rfl

/-- Everything a completion leaves as it is, whatever its outcome (R93). -/
theorem State.complete_frame (o : CmdOutcome) (s : State) :
    (s.complete o).params = s.params ∧ (s.complete o).ie = s.ie ∧ (s.complete o).ovr = s.ovr ∧ (s.complete o).wbusy = s.wbusy
      ∧ (s.complete o).lastcmd = s.lastcmd ∧ (s.complete o).snap = s.snap ∧ (s.complete o).host = s.host
      ∧ (s.complete o).turns = s.turns ∧ (s.complete o).reads = s.reads ∧ (s.complete o).draws = s.draws := by
  cases o with
  | ok dst res key => simp [State.complete, State.completeOk]
  | error c src => simp [State.complete]

/-- What every completion does to the engine (R93). -/
theorem State.complete_ends (o : CmdOutcome) (s : State) : (s.complete o).pending = none ∧ (s.complete o).done = true := by
  cases o with
  | ok dst res key => simp [State.complete, State.completeOk]
  | error c src => simp [State.complete]

/-- The register file after a completion: the destination's entry is the result, if there is one. -/
theorem State.complete_regs (o : CmdOutcome) (s : State) :
    (s.complete o).regs = s.regs ∨ ∃ rd v res key, o = .ok (some (rd, v)) res key ∧ (s.complete o).regs = s.regs.set rd (.ofResult v) := by
  match o with
  | .ok none res key => exact .inl (by simp [State.complete, State.completeOk])
  | .ok (some (rd, v)) res key => exact .inr ⟨rd, v, res, key, rfl, by simp [State.complete, State.completeOk]⟩
  | .error c src => exact .inl (by simp [State.complete])

/-! ### The checks of R94 -/

theorem needOperand_some {snap : Bank (Option Int)} {slot : Slot} {r : Reg} {v : Int} (h : snap.get r = some v) (go : Int → CmdOutcome) :
    needOperand snap slot r go = go v := by
  simp [needOperand, h]

theorem needOperand_none {snap : Bank (Option Int)} {slot : Slot} {r : Reg} (h : snap.get r = none) (go : Int → CmdOutcome) :
    needOperand snap slot r go = .error .unwrittenOperand slot := by
  simp [needOperand, h]

theorem needSignature_some {snap : Bank (Option Int)} {r : Reg} {v : Int} (h : snap.get r = some v) (go : Int → CmdOutcome) :
    needSignature snap r go = go v := by
  simp [needSignature, h]

theorem needSignature_none {snap : Bank (Option Int)} {r : Reg} (h : snap.get r = none) (go : Int → CmdOutcome) :
    needSignature snap r go = .error .invalidSignatureFormat .ra := by
  simp [needSignature, h]

/-- The outcome of an operand check: the error of an unwritten slot, or what the command makes of the operand. -/
theorem needOperand_cases (snap : Bank (Option Int)) (slot : Slot) (r : Reg) (go : Int → CmdOutcome) :
    needOperand snap slot r go = .error .unwrittenOperand slot ∨ ∃ v, snap.get r = some v ∧ needOperand snap slot r go = go v := by
  cases h : snap.get r with
  | none => exact .inl (needOperand_none h go)
  | some v => exact .inr ⟨v, rfl, needOperand_some h go⟩

/-! ### Commands -/

/-- Every command completes: `exec` answers the completion of some outcome (R89: "No error stops the engine"). -/
theorem exec_completes (i : Instr) (s : State) : ∃ o, exec i s = .next (s.complete o) := by
  cases i <;> exact ⟨_, rfl⟩

/-- What a command leaves as it is (R93, R95). -/
theorem exec_frame {i : Instr} {s t : State} (h : exec i s = .next t) :
    t.params = s.params ∧ t.ie = s.ie ∧ t.ovr = s.ovr ∧ t.wbusy = s.wbusy ∧ t.lastcmd = s.lastcmd ∧ t.snap = s.snap
      ∧ t.host = s.host ∧ t.turns = s.turns ∧ t.reads = s.reads ∧ t.draws = s.draws := by
  obtain ⟨o, ho⟩ := exec_completes i s
  rw [ho] at h
  cases h
  exact s.complete_frame o

end Sys2Proof.Machine
end

