-- ==== Sys2Proof/Laws/PerInstr.lean ====
section
/-! SUPPORT. The per-instruction family `WordForm`: an instruction's word has the fixed bits of its row in the opcode map (30_encoding.md R61), and its
fields are well formed (R60). One lemma for each constructor of Instr. -/

namespace Sys2Proof.Laws

/-- R61's columns `match` and `mask`, by constructor. -/
def rowOf : Instr → Word × Word
  | .nop => (0x00000000#32, 0xFFFFFFFF#32)
  | .modred _ _ _ => (0x00000001#32, 0xFF8F88FF#32)
  | .modmul _ _ _ _ => (0x00000002#32, 0xFF8888FF#32)
  | .modpow _ _ _ _ => (0x00000003#32, 0xFF8888FF#32)
  | .gcd _ _ _ => (0x00000004#32, 0xFFF888FF#32)
  | .modinv _ _ _ => (0x00000005#32, 0xFF8F88FF#32)
  | .isprime _ => (0x00000006#32, 0xFFFF8FFF#32)
  | .keysetup _ _ _ _ => (0x00000010#32, 0xFE888FFF#32)
  | .sign _ _ => (0x00000011#32, 0xFFFF88FF#32)
  | .verify _ _ => (0x00000012#32, 0xFFF88FFF#32)
  | .keyrd _ _ => (0x00000013#32, 0xFEFFF8FF#32)

namespace WordForm

/-- The word keeps its row's fixed bits, and the fields pass R60 and R62. -/
def Statement (i : Instr) : Prop := encode i &&& (rowOf i).2 = (rowOf i).1 ∧ i.wellFormed = true

theorem nop : Statement .nop := by
  unfold Statement; decide

theorem modred (rd ra rc : Reg) : Statement (.modred rd ra rc) := by
  refine ⟨?_, ?_⟩
  · simp only [encode, Instr.format, FormatC.command, FormatC.toWord, rowOf]
    apply BitVec.eq_of_getLsbD_eq
    intro i hi
    simp only [BitVec.getLsbD_and, BitVec.getLsbD_append]
    interval_cases i <;> simp
  · simp [Instr.wellFormed, Instr.format, FormatC.command, FormatC.wellFormed, FormatC.opAssigned, FormatC.zerosClear,
      FormatC.unusedClear]

theorem modmul (rd ra rb rc : Reg) : Statement (.modmul rd ra rb rc) := by
  refine ⟨?_, ?_⟩
  · simp only [encode, Instr.format, FormatC.command, FormatC.toWord, rowOf]
    apply BitVec.eq_of_getLsbD_eq
    intro i hi
    simp only [BitVec.getLsbD_and, BitVec.getLsbD_append]
    interval_cases i <;> simp
  · simp [Instr.wellFormed, Instr.format, FormatC.command, FormatC.wellFormed, FormatC.opAssigned, FormatC.zerosClear,
      FormatC.unusedClear]

theorem modpow (rd ra rb rc : Reg) : Statement (.modpow rd ra rb rc) := by
  refine ⟨?_, ?_⟩
  · simp only [encode, Instr.format, FormatC.command, FormatC.toWord, rowOf]
    apply BitVec.eq_of_getLsbD_eq
    intro i hi
    simp only [BitVec.getLsbD_and, BitVec.getLsbD_append]
    interval_cases i <;> simp
  · simp [Instr.wellFormed, Instr.format, FormatC.command, FormatC.wellFormed, FormatC.opAssigned, FormatC.zerosClear,
      FormatC.unusedClear]

theorem gcd (rd ra rb : Reg) : Statement (.gcd rd ra rb) := by
  refine ⟨?_, ?_⟩
  · simp only [encode, Instr.format, FormatC.command, FormatC.toWord, rowOf]
    apply BitVec.eq_of_getLsbD_eq
    intro i hi
    simp only [BitVec.getLsbD_and, BitVec.getLsbD_append]
    interval_cases i <;> simp
  · simp [Instr.wellFormed, Instr.format, FormatC.command, FormatC.wellFormed, FormatC.opAssigned, FormatC.zerosClear,
      FormatC.unusedClear]

theorem modinv (rd ra rc : Reg) : Statement (.modinv rd ra rc) := by
  refine ⟨?_, ?_⟩
  · simp only [encode, Instr.format, FormatC.command, FormatC.toWord, rowOf]
    apply BitVec.eq_of_getLsbD_eq
    intro i hi
    simp only [BitVec.getLsbD_and, BitVec.getLsbD_append]
    interval_cases i <;> simp
  · simp [Instr.wellFormed, Instr.format, FormatC.command, FormatC.wellFormed, FormatC.opAssigned, FormatC.zerosClear,
      FormatC.unusedClear]

theorem isprime (ra : Reg) : Statement (.isprime ra) := by
  refine ⟨?_, ?_⟩
  · simp only [encode, Instr.format, FormatC.command, FormatC.toWord, rowOf]
    apply BitVec.eq_of_getLsbD_eq
    intro i hi
    simp only [BitVec.getLsbD_and, BitVec.getLsbD_append]
    interval_cases i <;> simp
  · simp [Instr.wellFormed, Instr.format, FormatC.command, FormatC.wellFormed, FormatC.opAssigned, FormatC.zerosClear,
      FormatC.unusedClear]

theorem keysetup (ra rb rc : Reg) (v : Bool) : Statement (.keysetup ra rb rc v) := by
  refine ⟨?_, ?_⟩
  · simp only [encode, Instr.format, FormatC.command, FormatC.toWord, rowOf]
    apply BitVec.eq_of_getLsbD_eq
    intro i hi
    simp only [BitVec.getLsbD_and, BitVec.getLsbD_append]
    cases v <;> interval_cases i <;> simp [flagF]
  · cases v <;> simp [Instr.wellFormed, Instr.format, FormatC.command, FormatC.wellFormed, FormatC.opAssigned, FormatC.zerosClear,
      FormatC.unusedClear, flagF]

theorem sign (rd ra : Reg) : Statement (.sign rd ra) := by
  refine ⟨?_, ?_⟩
  · simp only [encode, Instr.format, FormatC.command, FormatC.toWord, rowOf]
    apply BitVec.eq_of_getLsbD_eq
    intro i hi
    simp only [BitVec.getLsbD_and, BitVec.getLsbD_append]
    interval_cases i <;> simp
  · simp [Instr.wellFormed, Instr.format, FormatC.command, FormatC.wellFormed, FormatC.opAssigned, FormatC.zerosClear,
      FormatC.unusedClear]

theorem verify (ra rb : Reg) : Statement (.verify ra rb) := by
  refine ⟨?_, ?_⟩
  · simp only [encode, Instr.format, FormatC.command, FormatC.toWord, rowOf]
    apply BitVec.eq_of_getLsbD_eq
    intro i hi
    simp only [BitVec.getLsbD_and, BitVec.getLsbD_append]
    interval_cases i <;> simp
  · simp [Instr.wellFormed, Instr.format, FormatC.command, FormatC.wellFormed, FormatC.opAssigned, FormatC.zerosClear,
      FormatC.unusedClear]

theorem keyrd (rd : Reg) (sel : KeySel) : Statement (.keyrd rd sel) := by
  unfold Statement; cases sel <;> cases rd <;> decide

end WordForm

end Sys2Proof.Laws
end

