-- ==== Sys2Proof/Laws/Safety.lean ====
section
/-! SUPPORT. The statements' arithmetic predicates (Safety.lean) and the model's functions say the same. -/

namespace Sys2Proof.Machine

/-- R10. -/
theorem isPrime_isPrimeValue (v : Int) : isPrime v = true ↔ IsPrimeValue v := isPrime_iff v

/-- R10: the model's gcd is the greatest common divisor. -/
theorem gcdAbs_isGcd (a b : Int) : IsGcd a b (gcdAbs a b) :=
  ⟨by positivity, Int.gcd_dvd_left a b, Int.gcd_dvd_right a b, fun _ h1 h2 => Int.dvd_coe_gcd h1 h2⟩

/-- Coprime in the statements' words and in the model's. -/
theorem isGcd_one_iff {a b : Int} : IsGcd a b 1 ↔ gcdAbs a b = 1 := by
  constructor
  · rintro ⟨-, -, -, h⟩
    have hg := h (gcdAbs a b) (Int.gcd_dvd_left a b) (Int.gcd_dvd_right a b)
    exact Nat.dvd_one.mp (Int.natCast_dvd_natCast.mp (by simpa using hg))
  · intro h
    simpa [h] using gcdAbs_isGcd a b

/-- A common divisor above 1 rules coprimality out. -/
theorem gcdAbs_ne_one {a b c : Int} (hc : 1 < c) (ha : c ∣ a) (hb : c ∣ b) : gcdAbs a b ≠ 1 := fun hg => by
  have hdvd := (isGcd_one_iff.mpr hg).2.2.2 c ha hb
  have := Int.le_of_dvd one_pos hdvd
  omega

/-- R11: `modpow` is one number. -/
theorem isModpow_iff {b m r : Int} {x : Nat} (hm : 0 < m) : IsModpow b x m r ↔ r = emod (emod b m ^ x) m := by
  constructor
  · rintro ⟨y, hy, h⟩
    rw [emod_unique hy.1 hy.2.1 hy.2.2, emod_unique h.1 h.2.1 h.2.2]
  · rintro rfl
    exact ⟨_, emod_spec b hm, emod_spec _ hm⟩

end Sys2Proof.Machine
end

