-- ==== Sys2Proof/Laws/Step.lean ====
section
/-! SUPPORT. What a step can do (00_scope.md R9): one inversion lemma for the bus, for the host's turn, for the engine's turn and for the step. -/

namespace Sys2Proof.Machine

/-- A host access that the machine survives: it is outside the aperture and changes nothing, or it is an aligned 32-bit access at a mapped register (R42 to R45). -/
theorem busAccess_cases {a : Access} {s t : State} (h : busAccess a s = .next t) :
    (apertureOffset s.params a.addr = none ∧ t = s)
      ∨ ∃ off l, apertureOffset s.params a.addr = some off ∧ a.width = .w32 ∧ off % 4 = 0 ∧ locate s.params off = some l
          ∧ t = s.accessAt a l := by
  unfold busAccess at h
  split at h
  · next ho =>
    cases h
    exact .inl ⟨ho, rfl⟩
  · next off ho =>
    split at h
    · cases h
    · next hw =>
      simp only [ne_eq, not_or, not_not] at hw
      split at h
      · cases h
      · next l hl =>
        cases h
        exact .inr ⟨off, l, ho, hw.1, hw.2, hl, rfl⟩

/-- An accepted access is a read or a write of its register (R43). -/
theorem State.accessAt_cases (a : Access) (l : Loc) (s : State) :
    s.accessAt a l = s.busRead l ∨ ∃ v, s.accessAt a l = s.busWrite l v := by
  cases a with
  | read ad w => exact .inl rfl
  | write ad w v => exact .inr ⟨v, rfl⟩

/-- What the host's turn can do: nothing, one access of its program, or one STATUS read of WAIT. -/
theorem hostTurn_cases {s t : State} (h : hostTurn s = .next t) :
    t = s
      ∨ ∃ (a : Access) (rest : List HostOp), busAccess a { s with host := rest } = .next t
          ∧ (s.host = .access a :: rest ∨ (a = lw s.params .status ∧ ∃ ops, s.host = .wait :: ops)) := by
  unfold hostTurn at h
  split at h
  · cases h
    exact .inl rfl
  · next a rest hs => exact .inr ⟨a, rest, h, .inl hs⟩
  · next rest hs => exact .inr ⟨_, _, h, .inr ⟨rfl, rest, hs⟩⟩

/-- What the engine's turn can do: nothing while no command is pending, else one completion (R93). -/
theorem engineTurn_cases (s : State) :
    (s.pending = none ∧ engineTurn s = .next s)
      ∨ ∃ w o, s.pending = some w ∧ engineTurn s = .next (s.complete o)
          ∧ ((∃ i, decode w = .cmd i ∧ exec i s = .next (s.complete o)) ∨ ((∃ why, decode w = .illegal why) ∧ o = .error .illegalCommand .noSlot)) := by
  unfold engineTurn
  split
  · next hp => exact .inl ⟨hp, rfl⟩
  · next w hp =>
    refine .inr ?_
    split
    · next i hd =>
      obtain ⟨o, ho⟩ := exec_completes i s
      exact ⟨w, o, hp, ho, .inl ⟨i, hd, ho⟩⟩
    · next why hd => exact ⟨w, _, hp, rfl, .inr ⟨⟨why, hd⟩, rfl⟩⟩

/-- What a step can do (R9). -/
theorem step_cases {s t : State} (h : step s = .next t) :
    (s.takeTurn.1 = .host ∧ hostTurn s.takeTurn.2 = .next t)
      ∨ (s.takeTurn.1 = .engine ∧ engineTurn s.takeTurn.2 = .next t)
      ∨ (s.takeTurn.1 = .reset ∧ t = s.takeTurn.2.resetEvent) := by
  unfold step runTurn at h
  split at h
  · next ht => exact .inl ⟨ht, h⟩
  · next ht => exact .inr (.inl ⟨ht, h⟩)
  · next ht =>
    cases h
    exact .inr (.inr ⟨ht, rfl⟩)

end Sys2Proof.Machine
end

