-- ==== Sys2Proof/Laws/Words.lean ====
section
/-! SUPPORT. The words of a magnitude (10_state.md R27, R28): read after write, other words, and that a word write and a draw stay within K bits. -/

namespace Sys2Proof.Machine

/-- MAG below 2^(32·i), word i and the rest above it, put together (R47). -/
theorem setMagWord_split (mag i : Nat) (w : Word) :
    setMagWord mag i w = (mag / 2 ^ (32 * (i + 1)) * 2 ^ 32 + w.toNat) * 2 ^ (32 * i) + mag % 2 ^ (32 * i) := by
  have : (2 : Nat) ^ (32 * (i + 1)) = 2 ^ 32 * 2 ^ (32 * i) := by rw [← pow_add]; congr 1; ring
  rw [setMagWord, this]
  ring

/-- What stands above word i − 1 after a write to word i. -/
theorem setMagWord_div (mag i : Nat) (w : Word) :
    setMagWord mag i w / 2 ^ (32 * i) = mag / 2 ^ (32 * (i + 1)) * 2 ^ 32 + w.toNat := by
  rw [setMagWord_split, Nat.add_comm, Nat.add_mul_div_right _ _ (by positivity), Nat.div_eq_of_lt (Nat.mod_lt _ (by positivity)), Nat.zero_add]

/-- What stands below word i is left as it was. -/
theorem setMagWord_mod (mag i : Nat) (w : Word) : setMagWord mag i w % 2 ^ (32 * i) = mag % 2 ^ (32 * i) := by
  rw [setMagWord_split, Nat.add_comm, Nat.add_mul_mod_self_right, Nat.mod_mod]

/-- What stands above word i is left as it was. -/
theorem setMagWord_high (mag i : Nat) (w : Word) :
    setMagWord mag i w / 2 ^ (32 * (i + 1)) = mag / 2 ^ (32 * (i + 1)) := by
  have h32 : (2 : Nat) ^ (32 * (i + 1)) = 2 ^ (32 * i) * 2 ^ 32 := by rw [← pow_add]; congr 1
  rw [h32, ← Nat.div_div_eq_div_mul, setMagWord_div, Nat.add_comm, Nat.add_mul_div_right _ _ (by positivity),
    Nat.div_eq_of_lt w.isLt, Nat.zero_add, ← h32]

/-- Word i reads as it was written (R28). -/
@[simp] theorem magWord_setMagWord_same (mag i : Nat) (w : Word) : magWord (setMagWord mag i w) i = w := by
  rw [magWord, setMagWord_div]
  apply BitVec.eq_of_toNat_eq
  rw [BitVec.toNat_ofNat, Nat.add_comm, Nat.add_mul_mod_self_right, Nat.mod_eq_of_lt w.isLt]

/-- The other words are left unchanged (R28). -/
theorem magWord_setMagWord_ne (mag i j : Nat) (w : Word) (h : j ≠ i) : magWord (setMagWord mag i w) j = magWord mag j := by
  apply BitVec.eq_of_toNat_eq
  simp only [magWord, BitVec.toNat_ofNat]
  rcases Nat.lt_or_gt_of_ne h with hlt | hgt
  · have key : ∀ x : Nat, x / 2 ^ (32 * j) % 2 ^ 32 = x % 2 ^ (32 * i) / 2 ^ (32 * j) % 2 ^ 32 := by
      intro x
      have : (2 : Nat) ^ (32 * i) = 2 ^ (32 * j) * 2 ^ 32 * 2 ^ (32 * (i - (j + 1))) := by
        rw [← pow_add, ← pow_add]; congr 1; omega
      rw [this, Nat.mul_assoc, Nat.mod_mul_right_div_self, Nat.mod_mul_right_mod]
    rw [key, setMagWord_mod, ← key]
  · have key : ∀ x : Nat, x / 2 ^ (32 * j) = x / 2 ^ (32 * (i + 1)) / 2 ^ (32 * (j - (i + 1))) := by
      intro x
      rw [Nat.div_div_eq_div_mul, ← pow_add]; congr 2; omega
    rw [key, setMagWord_high, ← key]

/-- A word write inside the register keeps MAG within its bits (R30). -/
theorem setMagWord_lt {mag i n : Nat} (w : Word) (hi : i < n) (h : mag < 2 ^ (32 * n)) : setMagWord mag i w < 2 ^ (32 * n) := by
  have hn : (2 : Nat) ^ (32 * n) = 2 ^ (32 * (n - (i + 1))) * 2 ^ (32 * (i + 1)) := by rw [← pow_add]; congr 1; omega
  have hhigh : mag / 2 ^ (32 * (i + 1)) < 2 ^ (32 * (n - (i + 1))) := by
    rw [Nat.div_lt_iff_lt_mul (by positivity), ← hn]; exact h
  rw [← setMagWord_high mag i w, Nat.div_lt_iff_lt_mul (by positivity), ← hn] at hhigh
  exact hhigh

/-- A drawn magnitude has no more bits than its words. -/
theorem drawMag_lt (draw : Nat) : ∀ n : Nat, drawMag draw n < 2 ^ (32 * n)
  | 0 => by simp [drawMag]
  | n + 1 => by
    have ih := drawMag_lt draw n
    have hw := (Config.freeWord (draw + n)).isLt
    have : (2 : Nat) ^ (32 * (n + 1)) = 2 ^ 32 * 2 ^ (32 * n) := by rw [← pow_add]; congr 1; ring
    rw [drawMag, this]
    nlinarith [Nat.two_pow_pos (32 * n)]

end Sys2Proof.Machine
end

