-- ==== Sys2Proof/Tests/Slice0.lean ====
section
/-! SUPPORT. The model's own tests: ill-formed terms the checks refuse, words written out from the spec's encodings, two small steps for each command with
results from spec/95_test_vectors.md, and for each statement with hypotheses a state and operands that meet all of them together (`witness_…`). -/

namespace Sys2Proof.Tests

open Machine

/-! ### Small states -/

/-- An idle block with K = 64 at 0x4000, every register 0 and unwritten. -/
def idle : State :=
  let z : OpReg := { sign := false, valid := false, mag := 0 }
  { params := { k := 64, base := 0x4000 }, ie := false, done := false, result := false, ovr := false, wbusy := false, errcode := .noError,
    errsrc := .noSlot, lastcmd := 0#32, regs := ⟨z, z, z, z, z, z, z, z⟩, keyN := 0, keyD := 0, keyE := 0, keyv := false, pending := none,
    snap := ⟨none, none, none, none, none, none, none, none⟩, host := [], turns := [], reads := [], draws := 0 }

/-- A command with operands a, b, c in r0, r1, r2 is pending. -/
def ops (a b c : Option Int) : State := { idle with snap := ⟨a, b, c, none, none, none, none, none⟩, pending := some 0#32 }

/-- The key of 41_rsa.md R81's example: (209, 67, 43). -/
def keyed (s : State) : State := { s with keyN := 209, keyD := 67, keyE := 43, keyv := true }

/-- The host has one access to make. -/
def hostDoes (a : Access) : State := { idle with host := [.access a] }

def nextOf (o : Host.Outcome State Fault Refusal) : State :=
  match o with
  | .next t => t
  | .fault _ => idle
  | .refused _ => idle

/-- STATUS after an answer. -/
def status (o : Host.Outcome State Fault Refusal) : Word := (nextOf o).statusWord

/-- The value of a register after an answer, if it is written. -/
def value (r : Reg) (o : Host.Outcome State Fault Refusal) : Option Int := ((nextOf o).regs.get r).operand

/-- The key after an answer. -/
def key (o : Host.Outcome State Fault Refusal) : Nat × Nat × Nat × Bool := ((nextOf o).keyN, (nextOf o).keyD, (nextOf o).keyE, (nextOf o).keyv)

def faultOf (o : Host.Outcome State Fault Refusal) : Option Fault :=
  match o with
  | .next _ => none
  | .fault f => some f
  | .refused _ => none

/-! ### Well-formedness: each check refuses an ill-formed term -/

theorem test_params_wf_accepts : Params.wf ⟨2048, 0x2000⟩ = true ∧ Params.wf ⟨32, 0⟩ = true ∧ Params.wf ⟨4096, 0x4000⟩ = true := by decide
theorem test_params_wf_refuses :
    Params.wf ⟨0, 0⟩ = false ∧ Params.wf ⟨4128, 0⟩ = false ∧ Params.wf ⟨48, 0⟩ = false ∧ Params.wf ⟨64, 0x1000⟩ = false := by decide
theorem test_zerosClear_refuses :
    (FormatC.ofWord 0x00000800#32).zerosClear = false ∧ (FormatC.ofWord 0x00008001#32).zerosClear = false
      ∧ (FormatC.ofWord 0x00080001#32).zerosClear = false ∧ (FormatC.ofWord 0x00800001#32).zerosClear = false
      ∧ (FormatC.ofWord 0x80000000#32).zerosClear = false := by decide
theorem test_opAssigned_refuses :
    (FormatC.ofWord 0x07#32).opAssigned = false ∧ (FormatC.ofWord 0x0F#32).opAssigned = false ∧ (FormatC.ofWord 0x14#32).opAssigned = false
      ∧ (FormatC.ofWord 0xFF#32).opAssigned = false := by decide
/-- One unused field set, for each row of R61. -/
theorem test_unusedClear_refuses :
    (FormatC.ofWord 0x00000100#32).unusedClear = false ∧ (FormatC.ofWord 0x00010001#32).unusedClear = false
      ∧ (FormatC.ofWord 0x01000002#32).unusedClear = false ∧ (FormatC.ofWord 0x08000003#32).unusedClear = false
      ∧ (FormatC.ofWord 0x00210304#32).unusedClear = false ∧ (FormatC.ofWord 0x00010005#32).unusedClear = false
      ∧ (FormatC.ofWord 0x00000106#32).unusedClear = false ∧ (FormatC.ofWord 0x02210010#32).unusedClear = false
      ∧ (FormatC.ofWord 0x00100011#32).unusedClear = false ∧ (FormatC.ofWord 0x00000112#32).unusedClear = false
      ∧ (FormatC.ofWord 0x02000313#32).unusedClear = false := by decide

/-! ### Decoding: the patterns of R61 with the register bits written in -/

theorem test_decode_nop : decode 0b00000000000000000000000000000000#32 = .cmd .nop := by decide
theorem test_decode_modred : decode 0b00000000010000000001001100000001#32 = .cmd (.modred .r3 .r1 .r4) := by decide
theorem test_decode_modmul : decode 0b00000000011101010001001100000010#32 = .cmd (.modmul .r3 .r1 .r5 .r7) := by decide
theorem test_decode_modpow : decode 0b00000000011101010001001100000011#32 = .cmd (.modpow .r3 .r1 .r5 .r7) := by decide
theorem test_decode_gcd : decode 0b00000000000001010001001100000100#32 = .cmd (.gcd .r3 .r1 .r5) := by decide
theorem test_decode_modinv : decode 0b00000000011000000001001100000101#32 = .cmd (.modinv .r3 .r1 .r6) := by decide
theorem test_decode_isprime : decode 0b00000000000000000101000000000110#32 = .cmd (.isprime .r5) := by decide
theorem test_decode_keysetup : decode 0b00000001011101010001000000010000#32 = .cmd (.keysetup .r1 .r5 .r7 true) := by decide
theorem test_decode_keysetup_v0 : decode 0b00000000011101010001000000010000#32 = .cmd (.keysetup .r1 .r5 .r7 false) := by decide
theorem test_decode_sign : decode 0b00000000000000000001001100010001#32 = .cmd (.sign .r3 .r1) := by decide
theorem test_decode_verify : decode 0b00000000000001010001000000010010#32 = .cmd (.verify .r1 .r5) := by decide
theorem test_decode_keyrd_n : decode 0b00000000000000000000011000010011#32 = .cmd (.keyrd .r6 .n) := by decide
theorem test_decode_keyrd_e : decode 0b00000001000000000000011000010011#32 = .cmd (.keyrd .r6 .e) := by decide
/-- 95_test_vectors.md section 2, the illegal words. -/
theorem test_decode_illegal :
    decode 0x00000007#32 = .illegal .reservedOpcode ∧ decode 0x0000000F#32 = .illegal .reservedOpcode
      ∧ decode 0x00000100#32 = .illegal .mustBeZero ∧ decode 0x00000800#32 = .illegal .mustBeZero
      ∧ decode 0x80000000#32 = .illegal .mustBeZero ∧ decode 0x02000313#32 = .illegal .mustBeZero
      ∧ decode 0x02210010#32 = .illegal .mustBeZero ∧ decode 0x00210304#32 = .illegal .mustBeZero := by decide
/-- R64's example. -/
theorem test_encode_modpow : encode (.modpow .r3 .r0 .r1 .r2) = 0x00210303#32 := by decide
theorem test_decodeTableWord : decodeTableWord 32 0x00045012 = some (.verify .r5 .r4) ∧ decodeTableWord 32 0x14 = none := by decide

/-! ### One step for each command (95_test_vectors.md section 3) -/

theorem test_nop : status (exec .nop (ops none none none)) = 0x00000002#32 := by decide
theorem test_modred_negative : value .r3 (exec (.modred .r3 .r0 .r2) (ops (some (-17)) none (some 5))) = some 3 := by decide
theorem test_modred_unwritten_rc : status (exec (.modred .r3 .r0 .r2) (ops (some 5) none none)) = 0x00003706#32 := by decide
theorem test_modmul_full_width :
    value .r3 (exec (.modmul .r3 .r0 .r1 .r2) (ops (some (2 ^ 64 - 1)) (some (2 ^ 64 - 1)) (some (2 ^ 61 - 1)))) = some 49 := by decide
theorem test_modmul_unwritten_rb : status (exec (.modmul .r3 .r0 .r1 .r2) (ops (some 5) none (some 7))) = 0x00002706#32 := by decide
theorem test_modpow : value .r3 (exec (.modpow .r3 .r0 .r1 .r2) (ops (some 4) (some 13) (some 497))) = some 445 := by decide
theorem test_modpow_exponent_first : status (exec (.modpow .r3 .r0 .r1 .r2) (ops (some 3) (some (-1)) (some 0))) = 0x00002806#32 := by decide
theorem test_gcd_signs : value .r3 (exec (.gcd .r3 .r0 .r1) (ops (some (-12)) (some (-18)) none)) = some 6 := by decide
theorem test_gcd_zero : value .r3 (exec (.gcd .r3 .r0 .r1) (ops (some 0) (some 0) none)) = some 0 := by decide
theorem test_modinv_negative : value .r3 (exec (.modinv .r3 .r0 .r2) (ops (some (-67)) none (some 180))) = some 137 := by decide
theorem test_modinv_none : status (exec (.modinv .r3 .r0 .r2) (ops (some 6) none (some 9))) = 0x00001406#32 := by decide
theorem test_isprime_carmichael : status (exec (.isprime .r0) (ops (some 561) none none)) = 0x00000002#32 := by decide
theorem test_isprime_7919 : (nextOf (exec (.isprime .r0) (ops (some 7919) none none))).result = true := by decide
theorem test_keysetup : key (exec (.keysetup .r0 .r1 .r2 true) (ops (some 11) (some 19) (some 67))) = (209, 67, 43, true) := by decide
theorem test_keysetup_overflow :
    status (exec (.keysetup .r0 .r1 .r2 false) { ops (some 65537) (some 65539) (some 5) with params := ⟨32, 0⟩ }) = 0x00000906#32 := by decide
theorem test_sign_negative : value .r5 (exec (.sign .r5 .r0) (keyed (ops (some (-100)) none none))) = some 21 := by decide
theorem test_sign_too_large : status (exec (.sign .r5 .r0) (keyed (ops (some 209) none none))) = 0x00001216#32 := by decide
theorem test_verify_negative : status (exec (.verify .r0 .r1) (keyed (ops (some (-21)) (some 100) none))) = 0x0000001A#32 := by decide
theorem test_verify_unwritten_signature : status (exec (.verify .r0 .r1) (keyed (ops none (some 100) none))) = 0x00001316#32 := by decide
theorem test_keyrd_n : value .r3 (exec (.keyrd .r3 .n) (keyed (ops none none none))) = some 209 := by decide
theorem test_keyrd_e : value .r3 (exec (.keyrd .r3 .e) (keyed (ops none none none))) = some 43 := by decide
/-- 41_rsa.md R85's counterexample: with the key (121, 3, 67) the digest 2 signs to 8, and 8 does not verify against 2. -/
theorem test_equal_primes_do_not_round_trip :
    value .r5 (exec (.sign .r5 .r0) { ops (some 2) none none with keyN := 121, keyD := 3, keyE := 67, keyv := true }) = some 8
      ∧ status (exec (.verify .r0 .r1) { ops (some 8) (some 2) none with keyN := 121, keyD := 3, keyE := 67, keyv := true }) = 0x00000012#32 := by
  decide

/-! ### The bus and the step (95_test_vectors.md sections 3.3, 3.4, 4) -/

theorem test_read_id_and_param :
    (nextOf (step (hostDoes (.read 0x4000 .w32)))).reads = [0x52534131#32]
      ∧ (nextOf (step (hostDoes (.read 0x4004 .w32)))).reads = [0x00080040#32] := by decide
theorem test_bus_errors :
    faultOf (step (hostDoes (.read 0x400C .w16))) = some .busErrorWidthOrAlignment
      ∧ faultOf (step (hostDoes (.read 0x400E .w32))) = some .busErrorWidthOrAlignment
      ∧ faultOf (step (hostDoes (.read 0x4018 .w32))) = some .busErrorUnmapped
      ∧ faultOf (step (hostDoes (.read 0x4040 .w32))) = some .busErrorUnmapped
      ∧ faultOf (step (hostDoes (.read 0x5400 .w32))) = some .busErrorUnmapped
      ∧ faultOf (step (hostDoes (.read 0x4408 .w32))) = some .busErrorUnmapped := by decide
theorem test_rmeta_write_sets_sign_and_valid :
    (nextOf (step (hostDoes (.write 0x4020 .w32 0x7#32)))).locWord (.rmeta .r0) = 0x00000003#32 := by decide
theorem test_cmd_write_while_busy_is_dropped :
    (nextOf (step { hostDoes (.write 0x4010 .w32 0x0#32) with pending := some 0x4511#32, lastcmd := 0x4511#32, turns := [.host] })).lastcmd = 0x4511#32
      ∧ status (step { hostDoes (.write 0x4010 .w32 0x0#32) with pending := some 0x4511#32, turns := [.host] }) = 0x00000021#32 := by decide
theorem test_window_write_while_busy_is_dropped :
    status (step { hostDoes (.write 0x4400 .w32 99#32) with pending := some 0x4511#32, turns := [.host] }) = 0x00000041#32 := by decide
theorem test_illegal_word_completes : status (step { idle with pending := some 0x7#32 }) = 0x00000A06#32 := by decide
theorem test_reset_aborts_keysetup :
    status (step { ops (some 11) (some 19) (some 67) with pending := some 0x01210010#32, turns := [.reset] }) = 0x00000000#32 := by decide
theorem test_first_command_after_reset :
    status (step (State.reset.withFetchWord 32 0x00000000)) = 0x00000002#32
      ∧ status (step (State.reset.withFetchWord 32 0x00004511)) = 0x00000506#32 := by decide
/-- 95_test_vectors.md P1, first line: `LI r0, 11` is SW 0x020, 0x6 and SW 0x400, 0xB. -/
theorem test_li_expansion :
    HostLine.expand ⟨64, 0⟩ (.li .r0 11) = [.access (.write 0x020 .w32 0x6#32), .access (.write 0x400 .w32 0xB#32)] := by decide
theorem test_assembler_text : asmText (.keysetup .r0 .r1 .r2 true) = "KEYSETUP r0, r1, r2, 1" := by decide

/-! ### Witnesses: a state and operands that meet each statement's hypotheses together -/

theorem witness_EncodeOfDecodeIsTheWord : decode 0x00210303#32 = .cmd (.modpow .r3 .r0 .r1 .r2) := by decide

theorem witness_OpcodeRowsAreDisjoint : ∃ r ∈ opRows, ∃ q ∈ opRows, r.hits 0x00004511#32 = true ∧ q.hits 0x00004511#32 = true := by decide

theorem witness_MalformedWordCompletesWithIllegalCommand :
    (FormatC.ofWord 0x00000800#32).wellFormed = false ∧ idle.pending = none
      ∧ State.takeTurn { idle with pending := some 0x00000800#32 } = (.engine, { idle with pending := some 0x00000800#32 }) := by decide

theorem witness_StepCompletesTheDecodedCommand :
    (State.takeTurn { ops none none none with turns := [.engine] }).1 = .engine ∧ (ops none none none).pending = some 0#32
      ∧ decode 0#32 = .cmd .nop := by decide

/-- Operands of MODRED, MODMUL, MODPOW (exponent 0 and above) and MODINV: every register index, rd = ra too. -/
theorem witness_numeric_operands :
    (ops (some (-17)) (some 0) (some 5)).snap.get .r0 = some (-17) ∧ (ops (some (-17)) (some 0) (some 5)).snap.get .r1 = some 0
      ∧ (ops (some (-17)) (some 0) (some 5)).snap.get .r2 = some 5 ∧ (0 : Int) ≤ 0 ∧ (0 : Int) < 5 := by decide

theorem witness_ModinvWritesTheInverse : (ops (some 17) none (some 3120)).snap.get .r0 = some 17 ∧ IsGcd 17 3120 1 :=
  ⟨by decide, isGcd_one_iff.mpr (by decide)⟩

/-- The clauses of BadNumericOperandsFail meet at m = 0 and x = −1, x = 0. -/
theorem witness_BadNumericOperandsFail :
    (ops (some 17) (some (-1)) (some 0)).snap.get .r1 = some (-1) ∧ (ops (some 17) (some 0) (some 0)).snap.get .r1 = some 0
      ∧ (ops (some 17) (some 0) (some 0)).snap.get .r0 = some 17 ∧ (ops (some 17) (some 0) (some 0)).snap.get .r2 = some 0
      ∧ (0 : Int) ≤ 0 ∧ (-1 : Int) < 0 := by decide

theorem witness_ModinvWithoutInverseFails :
    (ops (some 6) none (some 9)).snap.get .r0 = some 6 ∧ (ops (some 6) none (some 9)).snap.get .r2 = some 9 ∧ (0 : Int) < 9 ∧ (1 : Int) < 3
      ∧ (3 : Int) ∣ 6 ∧ (3 : Int) ∣ 9 := by decide

theorem eleven_prime : IsPrimeValue 11 := (isPrime_isPrimeValue 11).mp (by decide)
theorem nineteen_prime : IsPrimeValue 19 := (isPrime_isPrimeValue 19).mp (by decide)
theorem nine_not_prime : ¬IsPrimeValue 9 := fun h => absurd ((isPrime_isPrimeValue 9).mpr h) (by decide)

/-- d at both ends of its range that are coprime to φ = 180: 7 and 179 = φ − 1. -/
theorem witness_ValidatedKeysetupWritesTheKey :
    (ops (some 11) (some 19) (some 179)).keyv = false ∧ (ops (some 11) (some 19) (some 179)).snap.get .r2 = some 179
      ∧ IsPrimeValue 11 ∧ IsPrimeValue 19 ∧ (2 : Int) ≤ 179 ∧ (179 : Int) ≤ (11 - 1) * (19 - 1) - 1
      ∧ IsGcd 179 ((11 - 1) * (19 - 1)) 1 ∧ (11 * 19 : Int) < 2 ^ idle.params.k :=
  ⟨by decide, by decide, eleven_prime, nineteen_prime, by decide, by decide, isGcd_one_iff.mpr (by decide), by decide⟩

/-- The smallest p, q and d: (2, 2, 0), φ = 1. -/
theorem witness_UnvalidatedKeysetupWritesTheKey :
    (ops (some 2) (some 2) (some 0)).keyv = false ∧ (ops (some 2) (some 2) (some 0)).snap.get .r2 = some 0
      ∧ IsGcd 0 ((2 - 1) * (2 - 1)) 1 ∧ (2 * 2 : Int) < 2 ^ idle.params.k :=
  ⟨by decide, by decide, isGcd_one_iff.mpr (by decide), by decide⟩

/-- One value for each clause: p = 9; q = 9; d = 1 and d = 180 (out of range); d = 2 with the common divisor 2. -/
theorem witness_KeysetupValidationErrors :
    ¬IsPrimeValue 9 ∧ IsPrimeValue 11 ∧ IsPrimeValue 19 ∧ ¬((2 : Int) ≤ 1 ∧ (1 : Int) ≤ (11 - 1) * (19 - 1) - 1)
      ∧ ¬((2 : Int) ≤ 180 ∧ (180 : Int) ≤ (11 - 1) * (19 - 1) - 1) ∧ (2 : Int) ≤ (11 - 1) * (19 - 1) - 1 ∧ (1 : Int) < 2
      ∧ (2 : Int) ∣ 2 ∧ (2 : Int) ∣ (11 - 1) * (19 - 1)
      ∧ (ops (some 9) (some 9) (some 2)).snap.get .r0 = some 9 ∧ (ops (some 9) (some 9) (some 2)).keyv = false :=
  ⟨nine_not_prime, eleven_prime, nineteen_prime, by decide, by decide, by decide, by decide, by decide, by decide, by decide, by decide⟩

/-- One value for each clause: p = 1; q = 1; d = −1; p·q = 2^64; d = 66 with the common divisor 6; a validated key with p·q ≥ 2^K for K = 7. -/
theorem witness_KeysetupConstructionErrors :
    (1 : Int) < 2 ∧ (-1 : Int) < 0 ∧ (2 : Int) ^ idle.params.k ≤ 2 ^ 32 * 2 ^ 32 ∧ (11 * 19 : Int) < 2 ^ idle.params.k ∧ (1 : Int) < 6
      ∧ (6 : Int) ∣ 66 ∧ (6 : Int) ∣ (11 - 1) * (19 - 1) ∧ IsPrimeValue 11 ∧ IsPrimeValue 19 ∧ IsGcd 67 ((11 - 1) * (19 - 1)) 1
      ∧ (2 : Int) ^ ({ idle with params := ⟨7, 0⟩ } : State).params.k ≤ 11 * 19 :=
  ⟨by decide, by decide, by decide, by decide, by decide, by decide, by decide, eleven_prime, nineteen_prime, isGcd_one_iff.mpr (by decide), by decide⟩

/-- The hash-image gate at its boundary: |h| = KEY_N − 1 passes, |h| = KEY_N is rejected, of either sign. -/
theorem witness_hash_image_gate :
    (keyed (ops (some (-208)) (some 309) none)).keyv = true ∧ (keyed (ops (some (-208)) (some 309) none)).snap.get .r0 = some (-208)
      ∧ (keyed (ops (some (-208)) (some 309) none)).snap.get .r1 = some 309 ∧ (-208 : Int).natAbs < (keyed idle).keyN
      ∧ (keyed (ops (some (-209)) (some 0) none)).snap.get .r0 = some (-209) ∧ (keyed idle).keyN ≤ (-209 : Int).natAbs := by decide

theorem witness_KeyrdCopiesAPublicKeyRegister : (keyed (ops none none none)).keyv = true := by decide

theorem witness_KeyStateIsCheckedBeforeOperands : (ops none none none).keyv = false ∧ (keyed (ops none none none)).keyv = true := by decide

/-- VERIFY with its second slot unwritten, and with its first. -/
theorem witness_FirstUnwrittenSlotDecides :
    (Instr.verify .r0 .r1).keyStage (keyed (ops (some 188) none none)).keyv = none
      ∧ (Instr.verify .r0 .r1).sources = [(.ra, .r0)] ++ (.rb, .r1) :: []
      ∧ (∀ x ∈ [(Slot.ra, Reg.r0)], (keyed (ops (some 188) none none)).snap.get x.2 ≠ none)
      ∧ (keyed (ops (some 188) none none)).snap.get .r1 = none
      ∧ (Instr.verify .r0 .r1).sources = [] ++ (.ra, .r0) :: [(.rb, .r1)] ∧ (keyed (ops none none none)).snap.get .r0 = none := by decide

theorem witness_CommandFrame :
    exec (.gcd .r3 .r0 .r1) (ops (some 48) (some 18) none) = .next (nextOf (exec (.gcd .r3 .r0 .r1) (ops (some 48) (some 18) none)))
      ∧ (Instr.gcd .r3 .r0 .r1).dst? ≠ some .r4 ∧ (Instr.gcd .r3 .r0 .r1).isKeysetup = false := ⟨rfl, by decide, by decide⟩

theorem witness_FailedCompletionWritesNothing :
    (State.takeTurn { idle with pending := some 0x7#32 }).1 = .engine ∧ ({ idle with pending := some 0x7#32 } : State).pending ≠ none
      ∧ step { idle with pending := some 0x7#32 } = .next (nextOf (step { idle with pending := some 0x7#32 }))
      ∧ (nextOf (step { idle with pending := some 0x7#32 })).errcode ≠ .noError := ⟨by decide, by decide, rfl, by decide⟩

theorem witness_FailedCompletionWritesNothing_at_issue :
    (State.takeTurn { ops none none none with turns := [.host] }).1 = .host ∧ (ops none none none).pending ≠ none
      ∧ step { ops none none none with turns := [.host] } = .next (nextOf (step { ops none none none with turns := [.host] }))
      ∧ (ops none none none).keyv = false
      ∧ exec (.keysetup .r0 .r1 .r2 true) (ops none none none) = .next (nextOf (exec (.keysetup .r0 .r1 .r2 true) (ops none none none)))
      ∧ (nextOf (exec (.keysetup .r0 .r1 .r2 true) (ops none none none))).errcode ≠ .noError :=
  ⟨by decide, by decide, rfl, by decide, rfl, by decide⟩

theorem witness_OutcomeDependsOnSnapshotAndKey :
    (ops (some 48) (some 18) none).snap = ({ ops (some 48) (some 18) none with ie := true } : State).snap
      ∧ SameKey (ops (some 48) (some 18) none) { ops (some 48) (some 18) none with ie := true }
      ∧ (nextOf (exec (.gcd .r3 .r0 .r1) (ops (some 48) (some 18) none))).errcode = .noError := by decide

/-- A step of each kind: KEYSETUP's completion and the reset event. -/
theorem witness_KeyStateHasExactlyTwoTransitions :
    step { ops (some 11) (some 19) (some 67) with pending := some 0x01210010#32 }
        = .next (nextOf (step { ops (some 11) (some 19) (some 67) with pending := some 0x01210010#32 }))
      ∧ (nextOf (step { ops (some 11) (some 19) (some 67) with pending := some 0x01210010#32 })).keyv = true
      ∧ (State.takeTurn { keyed idle with turns := [.reset] }).1 = .reset := ⟨rfl, by decide, by decide⟩

theorem witness_StepKeepsTheKeyInvariant :
    (keyed idle).KeyWf ∧ step (keyed idle) = .next (nextOf (step (keyed idle))) :=
  ⟨fun _ => ⟨11, 19, by decide, by decide, by decide, by decide⟩, rfl⟩

/-- R81's example key, made from r0 = 11, r1 = 19, r2 = 67. -/
def made : State := nextOf (exec (.keysetup .r0 .r1 .r2 true) (ops (some 11) (some 19) (some 67)))

theorem witness_KeysetupGuarantees :
    exec (.keysetup .r0 .r1 .r2 true) (ops (some 11) (some 19) (some 67)) = .next made ∧ made.errcode = .noError := ⟨rfl, by decide⟩

/-- The digest at both ends of 0 ≤ h < KEY_N. -/
theorem witness_SignThenVerifyRoundTrip :
    exec (.keysetup .r0 .r1 .r2 true) (ops (some 11) (some 19) (some 67)) = .next made ∧ made.errcode = .noError
      ∧ (ops (some 11) (some 19) (some 67)).snap.get .r0 = some 11 ∧ (ops (some 11) (some 19) (some 67)).snap.get .r1 = some 19
      ∧ (11 : Int) ≠ 19 ∧ SameKey (keyed (ops (some 208) (some 0) none)) made
      ∧ (keyed (ops (some 208) (some 0) none)).snap.get .r0 = some 208 ∧ (208 : Int) < made.keyN := ⟨rfl, by decide⟩

/-- The state that verifies: the signature 188 of h = 100 (95_test_vectors.md section 3.2) in r0, h in r1, under the same key; and the state that signs it. -/
theorem witness_SignThenVerifyRoundTrip_verify :
    exec (.sign .r5 .r1) (keyed (ops none (some 100) none))
        = .next ((keyed (ops none (some 100) none)).succeeded ((keyed (ops none (some 100) none)).regsWith .r5 188) false)
      ∧ SameKey (keyed (ops none (some 100) none)) made ∧ (keyed (ops none (some 100) none)).snap.get .r1 = some 100
      ∧ SameKey (keyed (ops (some 188) (some 100) none)) made
      ∧ (keyed (ops (some 188) (some 100) none)).snap.get .r0 = some ((188 : Nat) : Int)
      ∧ (keyed (ops (some 188) (some 100) none)).snap.get .r1 = some 100 := ⟨rfl, by decide⟩

/-- h = 100, whose signature is 188; the changed signatures −21 and 950 of 95_test_vectors.md section 1.2. -/
theorem witness_TamperedSignatureIsDetectedByResidue :
    exec (.sign .r5 .r1) (keyed (ops none (some 100) none))
        = .next ((keyed (ops none (some 100) none)).succeeded ((keyed (ops none (some 100) none)).regsWith .r5 188) false)
      ∧ SameKey (keyed (ops (some (-21)) (some 100) none)) made ∧ (-21 : Int).natAbs < made.keyN ∧ made.keyN ≤ (950 : Int).natAbs :=
  ⟨rfl, by decide⟩

theorem witness_OnlySignUsesTheSecretExponent :
    ∀ w i, (keyed idle).pending = some w → decode w = .cmd i → i.isSign = false := fun _ _ h _ => by cases h

theorem witness_StepKeepsTheInvariant : idle.Inv ∧ step idle = .next (nextOf (step idle)) := by
  refine ⟨⟨⟨by decide, ?_, by decide, by decide, by decide⟩, fun h => absurd rfl h, fun h => absurd rfl h, fun _ => rfl⟩, rfl⟩
  intro r
  cases r <;> decide

theorem witness_ResetHasTheInvariant : Params.wf ⟨32, 0x2000⟩ = true := by decide

theorem witness_ResetGivesTheResetValues : (State.takeTurn { keyed (ops none none none) with turns := [.reset] }).1 = .reset := by decide

theorem witness_PendingCommandCompletes :
    ({ hostDoes (.read 0x400C .w32) with pending := some 0#32, turns := [.host] } : State).pending ≠ none
      ∧ ∀ a, HostOp.access a ∈ (hostDoes (.read 0x400C .w32)).host → a.Legal idle.params := by
  refine ⟨by decide, fun a ha => ?_⟩
  have : a = .read 0x400C .w32 := by simpa [hostDoes] using ha
  subst this
  decide

theorem witness_WaitEndsAfterCompletion :
    ({ ops none none none with host := [.wait], turns := [.host] } : State).pending ≠ none
      ∧ (State.takeTurn { ops none none none with host := [.wait], turns := [.host] }).1 = .host ∧ (ops none none none).turns = [] := by decide

/-- The largest value of K = 64 bits, negative. -/
theorem witness_RunOfLegalAccessesEnds :
    ({ idle with host := [.access (.write 0x4010 .w32 0#32), .wait] } : State).turns = []
      ∧ (∀ a, HostOp.access a ∈ [HostOp.access (.write 0x4010 .w32 0#32), .wait] → a.Legal idle.params) := by
  refine ⟨rfl, ?_⟩
  simp only [List.mem_cons, HostOp.access.injEq, reduceCtorEq, List.not_mem_nil, or_false, forall_eq]
  decide

theorem test_little_endian : wordByte 0x52534131#32 0 = 0x31#8 ∧ wordByte 0x52534131#32 3 = 0x52#8 := by decide

theorem witness_LiLoadsTheValue :
    idle.params.wf = true ∧ idle.pending = none ∧ idle.turns = [] ∧ (-(2 ^ 64 - 1) : Int).natAbs < 2 ^ idle.params.k
      ∧ ({ idle with host := HostLine.expand idle.params (.li .r7 (-(2 ^ 64 - 1))) ++ [.wait] } : State).host
        = HostLine.expand idle.params (.li .r7 (-(2 ^ 64 - 1))) ++ [.wait] := by decide

theorem witness_MagnitudeIsTheSumOfItsWords : idle.Wf ∧ idle.pending = none :=
  ⟨witness_StepKeepsTheInvariant.1.1, rfl⟩

/-- An idle block and a busy one, for the statements that tell them apart (RMETA, RDATA, CMD, reads of the window). -/
theorem witness_idle_and_busy : idle.pending = none ∧ (ops none none none).pending ≠ none ∧ (Loc.rmeta .r0).isWindow = true
    ∧ Loc.status.isWindow = false ∧ Loc.rdata .r0 1 ≠ .rdata .r0 0 := by decide

/-- A host step with a STATUS write, and one that issues. -/
theorem witness_StatusWriteClearsThreeBits :
    (State.takeTurn (hostDoes (.write 0x400C .w32 0x62#32))).1 = .host
      ∧ step (hostDoes (.write 0x400C .w32 0x62#32)) = .next (nextOf (step (hostDoes (.write 0x400C .w32 0x62#32))))
      ∧ (nextOf (step (hostDoes (.write 0x4010 .w32 0#32)))).pending ≠ none := ⟨by decide, rfl, by decide⟩

theorem witness_IrqFollowsDone : exec .nop idle = .next (nextOf (exec .nop idle)) ∧ (0x62#32).getLsbD 1 = true := ⟨rfl, by decide⟩

/-- The last RDATA word of K = 64 and of K = 4096, and the offsets just inside and outside them. -/
theorem witness_RegisterMapRoundTrip :
    Params.wf ⟨4096, 0⟩ = true ∧ (Loc.rdata .r7 127).mapped ⟨4096, 0⟩ = true ∧ locate ⟨4096, 0⟩ 0x13FC = some (.rdata .r7 127)
      ∧ locate ⟨64, 0⟩ 0x404 = some (.rdata .r0 1) ∧ locate ⟨64, 0⟩ 0x408 = none := by decide

theorem witness_NarrowOrMisalignedAccessFaults :
    (hostDoes (.read 0x5FFF .w8)).takeTurn.1 = .host ∧ idle.params.base ≤ 0x5FFF ∧ 0x5FFF < idle.params.base + 0x2000
      ∧ (Access.read 0x5FFF .w8).width ≠ .w32 ∧ (0x5FFE - idle.params.base) % 4 ≠ 0 := by decide

/-- Each unmapped range at an end, none of them mapped. -/
theorem witness_UnmappedOffsetFaults :
    (hostDoes (.read 0x4018 .w32)).takeTurn.1 = .host ∧ locate idle.params 0x018 = none ∧ locate idle.params 0x01C = none
      ∧ locate idle.params 0x040 = none ∧ locate idle.params 0x3FC = none ∧ idle.params.k / 32 ≤ 0x408 % 0x200 / 4
      ∧ locate idle.params 0x408 = none ∧ locate idle.params 0x13FC = none ∧ locate idle.params 0x1400 = none
      ∧ locate idle.params 0x1FFC = none := by decide

theorem witness_LegalAccessReachesItsRegister :
    idle.params.wf = true ∧ (Loc.rdata .r7 1).mapped idle.params = true
      ∧ (hostDoes (.read (idle.params.base + (Loc.rdata .r7 1).offset) .w32)).takeTurn.1 = .host
      ∧ (Access.read 0x3FFF .w8).addr < idle.params.base ∧ idle.params.base + 0x2000 ≤ (Access.read 0x6000 .w32).addr := by decide

theorem witness_OnlyIllegalAccessesFault : faultOf (step (hostDoes (.write 0x4018 .w32 0#32))) = some .busErrorUnmapped := by decide

/-- A step that issues a command. -/
theorem witness_LastcmdRecordsTheIssuedWord :
    step (hostDoes (.write 0x4010 .w32 0x4511#32)) = .next (nextOf (step (hostDoes (.write 0x4010 .w32 0x4511#32))))
      ∧ (nextOf (step (hostDoes (.write 0x4010 .w32 0x4511#32)))).pending = some 0x4511#32 := ⟨rfl, by decide⟩

end Sys2Proof.Tests
end

namespace Sys2Proof.Machine

/-! ### Results of the numeric family (R69 to R74, R93) -/

/-- A successful completion with a destination is `succeeded` with the result in that register (R32, R93). -/
theorem finishCommand_result (rd : Reg) (v : Nat) (s : State) :
    finishCommand (.ok (some (rd, v)) false none) s = .next (s.succeeded (s.regsWith rd v) false) := by
  rw [finishCommand, State.complete, State.completeOk_succeeded]
  rfl

/-- A successful completion without a destination writes RESULT and no register (R93). -/
theorem finishCommand_flag (res : Bool) (s : State) :
    finishCommand (.ok none res none) s = .next (s.succeeded s.regs res) := by
  rw [finishCommand, State.complete, State.completeOk_succeeded, State.writeDst_none_regs]

/-- A command that completes with the non-negative integer x writes a natural number that meets x's specification. -/
theorem exists_result {i : Instr} {s : State} {rd : Reg} {x : Int} {P : Int → Prop} (h0 : 0 ≤ x) (hP : P x)
    (he : exec i s = finishCommand (.ok (some (rd, x.toNat)) false none) s) :
    ∃ r : Nat, P r ∧ exec i s = .next (s.succeeded (s.regsWith rd r) false) :=
  ⟨x.toNat, by rwa [Int.toNat_of_nonneg h0], he.trans (finishCommand_result rd x.toNat s)⟩

/-! #### Stage 4 with operands the rules allow -/

theorem modredCommand_of_pos (rd : Reg) (a : Int) {m : Int} (hm : 0 < m) :
    modredCommand rd a m = .ok (some (rd, (emod a m).toNat)) false none :=
  if_neg hm.not_ge

theorem modmulCommand_of_pos (rd : Reg) (a b : Int) {m : Int} (hm : 0 < m) :
    modmulCommand rd a b m = .ok (some (rd, (emod (a * b) m).toNat)) false none :=
  if_neg hm.not_ge

theorem modpowCommand_of_nonneg_of_pos (rd : Reg) (b : Int) {x m : Int} (hx : 0 ≤ x) (hm : 0 < m) :
    modpowCommand rd b x m = .ok (some (rd, (modpow b x m).toNat)) false none :=
  (if_neg hx.not_gt).trans (if_neg hm.not_ge)

theorem modinvCommand_of_coprime (rd : Reg) {v m : Int} (hm : 0 < m) (hg : gcdAbs v m = 1) :
    modinvCommand rd v m = .ok (some (rd, (modinv v m).toNat)) false none :=
  (if_neg hm.not_ge).trans (if_neg (not_not_intro hg))

/-! #### Stage 3 with written operands: the command completes with its stage 4 on the values in SNAP -/

section Operands

variable {s : State} {ra rb rc : Reg} {a b c : Int}

theorem exec_modred_of_operands (rd : Reg) (ha : s.snap.get ra = some a) (hc : s.snap.get rc = some c) :
    exec (.modred rd ra rc) s = finishCommand (modredCommand rd a c) s := by
  rw [exec, execModred, needOperand_some ha, needOperand_some hc]

theorem exec_modmul_of_operands (rd : Reg) (ha : s.snap.get ra = some a) (hb : s.snap.get rb = some b)
    (hc : s.snap.get rc = some c) :
    exec (.modmul rd ra rb rc) s = finishCommand (modmulCommand rd a b c) s := by
  rw [exec, execModmul, needOperand_some ha, needOperand_some hb, needOperand_some hc]

theorem exec_modpow_of_operands (rd : Reg) (ha : s.snap.get ra = some a) (hb : s.snap.get rb = some b)
    (hc : s.snap.get rc = some c) :
    exec (.modpow rd ra rb rc) s = finishCommand (modpowCommand rd a b c) s := by
  rw [exec, execModpow, needOperand_some ha, needOperand_some hb, needOperand_some hc]

theorem exec_gcd_of_operands (rd : Reg) (ha : s.snap.get ra = some a) (hb : s.snap.get rb = some b) :
    exec (.gcd rd ra rb) s = finishCommand (gcdCommand rd a b) s := by
  rw [exec, execGcd, needOperand_some ha, needOperand_some hb]

theorem exec_modinv_of_operands (rd : Reg) (ha : s.snap.get ra = some a) (hc : s.snap.get rc = some c) :
    exec (.modinv rd ra rc) s = finishCommand (modinvCommand rd a c) s := by
  rw [exec, execModinv, needOperand_some ha, needOperand_some hc]

theorem exec_isprime_of_operand (ha : s.snap.get ra = some a) :
    exec (.isprime ra) s = finishCommand (isprimeCommand a) s := by
  rw [exec, execIsprime, needOperand_some ha]

end Operands

/-! #### The statements about the numeric family -/

/-- Settles O9: stage 3 finds both operands, stage 4 passes the modulus check, and `emod_spec` describes the result. -/
theorem modredWritesTheRemainder : Obligations.ModredWritesTheRemainder := by
  intro s rd ra rc a m ha hm hpos
  have hspec : IsEmod a m (emod a m) := emod_spec a hpos
  refine exists_result (P := IsEmod a m) hspec.1 hspec ?_
  rw [exec_modred_of_operands rd ha hm, modredCommand_of_pos rd a hpos]

/-- Settles O10: as MODRED, on the exact product. -/
theorem modmulWritesTheProductRemainder : Obligations.ModmulWritesTheProductRemainder := by
  intro s rd ra rb rc a b m ha hb hm hpos
  have hspec : IsEmod (a * b) m (emod (a * b) m) := emod_spec (a * b) hpos
  refine exists_result (P := IsEmod (a * b) m) hspec.1 hspec ?_
  rw [exec_modmul_of_operands rd ha hb hm, modmulCommand_of_pos rd a b hpos]

/-- Settles O11: repeated squaring computes the power (`modpow_eq`), which is the one number `IsModpow` describes. -/
theorem modpowWritesThePower : Obligations.ModpowWritesThePower := by
  intro s rd ra rb rc b x m hb hx hm hx0 hpos
  have hspec : IsModpow b x.toNat m (modpow b x m) := (isModpow_iff hpos).mpr (modpow_eq b hpos)
  refine exists_result (P := IsModpow b x.toNat m) (modpow_range b hpos).1 hspec ?_
  rw [exec_modpow_of_operands rd hb hx hm, modpowCommand_of_nonneg_of_pos rd b hx0 hpos]

/-- Settles O12: stage 4 of GCD has no check, and the model's gcd is the greatest common divisor. -/
theorem gcdWritesTheGreatestCommonDivisor : Obligations.GcdWritesTheGreatestCommonDivisor := by
  intro s rd ra rb a b ha hb
  refine ⟨gcdAbs a b, gcdAbs_isGcd a b, ?_⟩
  rw [exec_gcd_of_operands rd ha hb, gcdCommand, finishCommand_result]

/-- Settles O13: coprimality lets stage 4 pass, and Euclid's algorithm gives the inverse (`modinv_spec`). -/
theorem modinvWritesTheInverse : Obligations.ModinvWritesTheInverse := by
  intro s rd ra rc v m hv hm hpos hcoprime
  have hg : gcdAbs v m = 1 := isGcd_one_iff.mp hcoprime
  have hspec : IsModinv v m (modinv v m) := modinv_spec hpos hg
  refine exists_result (P := IsModinv v m) hspec.1 hspec ?_
  rw [exec_modinv_of_operands rd hv hm, modinvCommand_of_coprime rd hpos hg]

/-- Settles O14: RESULT is the answer of trial division, which decides primality. -/
theorem isprimeDecidesPrimality : Obligations.IsprimeDecidesPrimality := by
  intro s ra v hv
  refine ⟨isPrime v, isPrime_isPrimeValue v, ?_⟩
  rw [exec_isprime_of_operand hv, isprimeCommand, finishCommand_flag]

/-! ### The engine's step (R9, R93) -/

theorem step_of_host {s : State} (h : s.takeTurn.1 = .host) : step s = hostTurn s.takeTurn.2 := by
  rw [step, h, runTurn]

theorem step_of_engine {s : State} (h : s.takeTurn.1 = .engine) : step s = engineTurn s.takeTurn.2 := by
  rw [step, h, runTurn]

theorem step_of_reset {s : State} (h : s.takeTurn.1 = .reset) : step s = .next s.takeTurn.2.resetEvent := by
  rw [step, h, runTurn]

theorem engineTurn_of_cmd {s : State} {w : Word} {i : Instr} (hp : s.pending = some w) (hd : decode w = .cmd i) :
    engineTurn s = exec i s := by
  simp only [engineTurn, hp, hd]

/-- Settles O7: taking the turn leaves PENDING as it is, so the engine finds w and runs its command. -/
theorem stepCompletesTheDecodedCommand : Obligations.StepCompletesTheDecodedCommand := by
  intro s w i hturn hp hd
  have hp' : s.takeTurn.2.pending = some w := by rw [State.takeTurn_pending, hp]
  rw [step_of_engine hturn, engineTurn_of_cmd hp' hd]

/-- Whatever the pending word is, the engine's turn leaves no command pending (R93). -/
theorem engineTurn_not_pending (s : State) : ∃ t, engineTurn s = .next t ∧ t.pending = none := by
  rcases engineTurn_cases s with ⟨hp, hturn⟩ | ⟨w, o, -, hturn, -⟩
  · exact ⟨s, hturn, hp⟩
  · exact ⟨_, hturn, (s.complete_ends o).1⟩

/-! ### What a host access leaves unchanged (R43, R48 to R51) -/

@[simp] theorem State.busWrite_params (l : Loc) (w : Word) (s : State) : (s.busWrite l w).params = s.params := by
  cases l <;> simp [State.busWrite]
@[simp] theorem State.busWrite_host (l : Loc) (w : Word) (s : State) : (s.busWrite l w).host = s.host := by
  cases l <;> simp [State.busWrite]
@[simp] theorem State.busWrite_turns (l : Loc) (w : Word) (s : State) : (s.busWrite l w).turns = s.turns := by
  cases l <;> simp [State.busWrite]

/-- A write to CMD while a command is pending is dropped (R92). -/
theorem State.issue_pending_of_pending {s : State} (w : Word) (hp : s.pending ≠ none) : (s.issue w).pending = s.pending := by
  have hb : s.busy = true := Option.isSome_iff_ne_none.mpr hp
  rw [State.issue, if_pos hb]

/-- No write takes a pending command away or replaces it. -/
theorem State.busWrite_pending_of_pending {s : State} (l : Loc) (w : Word) (hp : s.pending ≠ none) :
    (s.busWrite l w).pending = s.pending := by
  cases l with
  | cmd => exact State.issue_pending_of_pending w hp
  | _ => simp [State.busWrite]

/-- What an access that is answered leaves unchanged: the parameters, the host's list, the turns, and a pending command. -/
theorem busAccess_frame {a : Access} {s t : State} (h : busAccess a s = .next t) :
    t.params = s.params ∧ t.host = s.host ∧ t.turns = s.turns ∧ (s.pending ≠ none → t.pending = s.pending) := by
  rcases busAccess_cases h with ⟨-, rfl⟩ | ⟨off, l, -, -, -, -, rfl⟩
  · exact ⟨rfl, rfl, rfl, fun _ => rfl⟩
  · rcases s.accessAt_cases a l with hread | ⟨v, hwrite⟩
    · simp [hread]
    · simpa [hwrite] using State.busWrite_pending_of_pending l v

/-! ### Legal accesses are answered (R42 to R45) -/

theorem busAccess_next_of_legal {a : Access} {s : State} (h : a.Legal s.params) : ∃ t, busAccess a s = .next t := by
  unfold busAccess
  split
  · exact ⟨s, rfl⟩
  · next off hoff =>
    obtain ⟨⟨hlo, hhi⟩, rfl⟩ : (s.params.base ≤ a.addr ∧ a.addr < s.params.base + 0x2000) ∧ a.addr - s.params.base = off := by
      simpa [apertureOffset] using hoff
    obtain ⟨-, hwidth, halign, hmapped⟩ : _ ∧ a.width = .w32 ∧ (a.addr - s.params.base) % 4 = 0 ∧ _ :=
      h.resolve_left (by omega)
    obtain ⟨l, hl⟩ := Option.ne_none_iff_exists'.mp hmapped
    simp [hwidth, halign, hl]

/-- The STATUS read of WAIT is legal for all parameters (R16, R66). -/
theorem lw_status_legal (p : Params) : (lw p .status).Legal p := by
  have hoff : (lw p .status).addr - p.base = 0x00C := Nat.add_sub_cancel_left p.base 0x00C
  refine .inr ⟨Nat.le_add_right p.base _, rfl, ?_, ?_⟩
  · rw [hoff]
  · simp [hoff, locate]

/-! ### The host's turn -/

/-- The host's turn does nothing, or makes an access of its program or the STATUS read of WAIT, and what it has to do after that it had to do before. -/
theorem hostTurn_eq (s : State) :
    hostTurn s = .next s
      ∨ ∃ a rest, hostTurn s = busAccess a { s with host := rest } ∧ rest ⊆ s.host
          ∧ (HostOp.access a ∈ s.host ∨ a = lw s.params .status) := by
  unfold hostTurn
  split
  · exact .inl rfl
  · next a rest hs => exact .inr ⟨a, rest, rfl, by simp [hs], .inl (by simp [hs])⟩
  · next rest hs =>
    refine .inr ⟨_, _, rfl, ?_, .inr rfl⟩
    split
    · exact List.Subset.refl _
    · simp [hs]

/-- With legal accesses only, the host's turn is answered and leaves the parameters, the turns and a pending command as they are. -/
theorem hostTurn_next_of_legal {s : State} (hlegal : ∀ a, HostOp.access a ∈ s.host → a.Legal s.params) :
    ∃ t, hostTurn s = .next t ∧ t.params = s.params ∧ t.host ⊆ s.host ∧ t.turns = s.turns
      ∧ (s.pending ≠ none → t.pending = s.pending) := by
  rcases hostTurn_eq s with hidle | ⟨a, rest, hturn, hrest, ha⟩
  · exact ⟨s, hidle, rfl, List.Subset.refl _, rfl, fun _ => rfl⟩
  · have hla : a.Legal s.params := by
      rcases ha with hmem | rfl
      · exact hlegal a hmem
      · exact lw_status_legal s.params
    obtain ⟨t, ht⟩ := busAccess_next_of_legal (s := { s with host := rest }) hla
    obtain ⟨hparams, hhost, hturns, hpending⟩ := busAccess_frame ht
    exact ⟨t, hturn.trans ht, hparams, hhost ▸ hrest, hturns, hpending⟩

/-! ### A pending command completes (R8, R116) -/

/-- Once the turns are used up, only the engine moves while a command is pending. -/
theorem State.turns_ne_nil_of_host {s : State} (hp : s.pending ≠ none) (ht : s.takeTurn.1 = .host) : s.turns ≠ [] := by
  intro hnil
  have hb : s.busy = true := Option.isSome_iff_ne_none.mpr hp
  rw [State.takeTurn_nil_busy s hnil hb] at ht
  cases ht

/-- With legal accesses only, a step from a pending command ends it, or is a host step that uses up one of the turns left and keeps
the command pending. -/
theorem step_of_pending {s : State} (hp : s.pending ≠ none) (hlegal : ∀ a, HostOp.access a ∈ s.host → a.Legal s.params) :
    ∃ t, step s = .next t ∧ (t.pending = none
      ∨ (t.turns.length < s.turns.length ∧ t.pending ≠ none ∧ ∀ a, HostOp.access a ∈ t.host → a.Legal t.params)) := by
  cases hturn : s.takeTurn.1 with
  | engine =>
    obtain ⟨t, ht, hdone⟩ := engineTurn_not_pending s.takeTurn.2
    exact ⟨t, (step_of_engine hturn).trans ht, .inl hdone⟩
  | reset => exact ⟨_, step_of_reset hturn, .inl (State.resetEvent_pending _)⟩
  | host =>
    obtain ⟨t, ht, hparams, hhost, hturns, hpending⟩ := hostTurn_next_of_legal (s := s.takeTurn.2) (by simpa using hlegal)
    simp only [State.takeTurn_params, State.takeTurn_host, State.takeTurn_turns, State.takeTurn_pending] at hparams hhost hturns hpending
    have hlen : 0 < s.turns.length := List.length_pos_iff.mpr (State.turns_ne_nil_of_host hp hturn)
    refine ⟨t, (step_of_host hturn).trans ht, .inr ⟨?_, ?_, ?_⟩⟩
    · rw [hturns, List.length_tail]
      omega
    · rwa [hpending hp]
    · exact fun a ha => hparams ▸ hlegal a (hhost ha)

theorem core_run_succ {s t : State} (h : step s = .next t) (n : Nat) : core.run (n + 1) s = core.run n t := by
  simp only [Host.Core.run, core, h]

/-- Each step that does not end the command uses up a turn, so the turns left bound the run. -/
theorem run_ends_pending (s : State) (hp : s.pending ≠ none) (hlegal : ∀ a, HostOp.access a ∈ s.host → a.Legal s.params) :
    ∃ n, n ≤ s.turns.length + 1 ∧ ∃ t : State, core.run n s = .next t ∧ t.pending = none := by
  obtain ⟨t, hstep, hdone | ⟨hlt, hpt, hlegal'⟩⟩ := step_of_pending hp hlegal
  · exact ⟨1, by omega, t, core_run_succ hstep 0, hdone⟩
  · obtain ⟨n, hn, u, hrun, hdone⟩ := run_ends_pending t hpt hlegal'
    exact ⟨n + 1, by omega, u, (core_run_succ hstep n).trans hrun, hdone⟩
termination_by s.turns.length

/-- Settles O40, by recursion on the number of turns left. -/
theorem pendingCommandCompletes : Obligations.PendingCommandCompletes := run_ends_pending

end Sys2Proof.Machine

namespace Sys2Proof.Machine

/-! ### The register map (R16, R45) -/

/-- R4: an allowed K gives at most 128 words, and K is the bits of its words. -/
theorem Params.words_of_wf {p : Params} (h : p.wf = true) : p.words ≤ 128 ∧ p.k = 32 * p.words := by
  simp only [Params.wf, Bool.and_eq_true, decide_eq_true_eq] at h
  unfold Params.words
  omega

theorem regOfIndex_toBits (r : Reg) : regOfIndex r.toBits.toNat = r := by
  simp [regOfIndex]

theorem toBits_regOfIndex {n : Nat} (h : n < 8) : (regOfIndex n).toBits.toNat = n := by
  simp [regOfIndex, Nat.mod_eq_of_lt h]

/-- Each register that exists is found at its offset. -/
theorem locate_offset {p : Params} {l : Loc} (hp : p.wf = true) (hl : l.mapped p = true) : locate p l.offset = some l := by
  cases l with
  | rmeta r =>
    have hr := r.toBits.isLt
    have hoff : 0x020 ≤ (Loc.rmeta r).offset ∧ (Loc.rmeta r).offset < 0x040 := by simp only [Loc.offset]; omega
    have hindex : ((Loc.rmeta r).offset - 0x020) / 4 = r.toBits.toNat := by simp only [Loc.offset]; omega
    unfold locate
    iterate 6 rw [if_neg (by omega)]
    rw [if_pos hoff, hindex, regOfIndex_toBits]
  | rdata r i =>
    have hr := r.toBits.isLt
    have hi : i < p.words := of_decide_eq_true hl
    have hwords := (Params.words_of_wf hp).1
    have hoff : 0x400 ≤ (Loc.rdata r i).offset ∧ (Loc.rdata r i).offset < 0x1400 := by simp only [Loc.offset]; omega
    have hindex : ((Loc.rdata r i).offset - 0x400) / 0x200 = r.toBits.toNat := by simp only [Loc.offset]; omega
    have hword : ((Loc.rdata r i).offset - 0x400) % 0x200 / 4 = i := by simp only [Loc.offset]; omega
    unfold locate
    iterate 7 rw [if_neg (by omega)]
    rw [if_pos hoff, hindex, hword, if_pos hi, regOfIndex_toBits]
  | _ => rfl

theorem Loc.offset_aligned (l : Loc) : l.offset % 4 = 0 := by
  cases l <;> simp only [Loc.offset] <;> omega

theorem Loc.offset_lt {p : Params} {l : Loc} (hp : p.wf = true) (hl : l.mapped p = true) : l.offset < 0x2000 := by
  cases l with
  | rmeta r =>
    have hr := r.toBits.isLt
    simp only [Loc.offset]
    omega
  | rdata r i =>
    have hr := r.toBits.isLt
    have hi : i < p.words := of_decide_eq_true hl
    have hwords := (Params.words_of_wf hp).1
    simp only [Loc.offset]
    omega
  | _ => decide

/-- An aligned offset is decoded to the register at that offset, which exists. -/
theorem mapped_offset_of_locate {p : Params} {off : Nat} {l : Loc} (halign : off % 4 = 0) (h : locate p off = some l) :
    l.mapped p = true ∧ l.offset = off := by
  unfold locate at h
  split_ifs at h with hid hparam hctrl hstatus hcmd hlast hmeta hdata hword <;> cases h
  · exact ⟨rfl, hid.symm⟩
  · exact ⟨rfl, hparam.symm⟩
  · exact ⟨rfl, hctrl.symm⟩
  · exact ⟨rfl, hstatus.symm⟩
  · exact ⟨rfl, hcmd.symm⟩
  · exact ⟨rfl, hlast.symm⟩
  · refine ⟨rfl, ?_⟩
    rw [Loc.offset, toBits_regOfIndex (by omega)]
    omega
  · refine ⟨decide_eq_true hword, ?_⟩
    rw [Loc.offset, toBits_regOfIndex (by omega)]
    omega

/-- Settles O54: `locate_offset` is the one direction, `mapped_offset_of_locate` the other. -/
theorem registerMapRoundTrip : Obligations.RegisterMapRoundTrip := fun _ hp =>
  ⟨fun l hl => ⟨locate_offset hp hl, l.offset_aligned, Loc.offset_lt hp hl⟩,
    fun _ _ halign h => mapped_offset_of_locate halign h⟩

/-! ### What a host step can do (R9, R43) -/

/-- What the host's turn can do to the block: nothing, or a read or a write of a register that exists (R45). Besides, it leaves the host another list. -/
theorem hostTurn_effect {s t : State} (h : hostTurn s = .next t) :
    ∃ ops, let u : State := { s with host := ops }
      t = u ∨ (∃ l, t = u.busRead l) ∨ ∃ l w, l.mapped s.params = true ∧ t = u.busWrite l w := by
  rcases hostTurn_cases h with rfl | ⟨a, rest, hbus, -⟩
  · exact ⟨t.host, .inl rfl⟩
  · refine ⟨rest, ?_⟩
    rcases busAccess_cases hbus with ⟨-, rfl⟩ | ⟨off, l, -, -, halign, hl, rfl⟩
    · exact .inl rfl
    · rcases State.accessAt_cases a l { s with host := rest } with hread | ⟨w, hwrite⟩
      · exact .inr (.inl ⟨l, hread⟩)
      · exact .inr (.inr ⟨l, w, (mapped_offset_of_locate halign hl).1, hwrite⟩)

/-- A host step is such a turn: the state the access is made in differs from s in the lists of the host and of the turns only. -/
theorem host_step_effect {s t : State} (h : step s = .next t) (hturn : s.takeTurn.1 = .host) :
    ∃ ops ts, let u : State := { s with host := ops, turns := ts }
      t = u ∨ (∃ l, t = u.busRead l) ∨ ∃ l w, l.mapped s.params = true ∧ t = u.busWrite l w := by
  rw [step_of_host hturn, State.takeTurn_snd] at h
  obtain ⟨ops, heffect⟩ := hostTurn_effect h
  exact ⟨ops, s.turns.tail, heffect⟩

/-! ### What a host write leaves unchanged -/

@[simp] theorem State.busWrite_keyN (l : Loc) (w : Word) (s : State) : (s.busWrite l w).keyN = s.keyN := by
  cases l <;> simp [State.busWrite]
@[simp] theorem State.busWrite_keyD (l : Loc) (w : Word) (s : State) : (s.busWrite l w).keyD = s.keyD := by
  cases l <;> simp [State.busWrite]
@[simp] theorem State.busWrite_keyE (l : Loc) (w : Word) (s : State) : (s.busWrite l w).keyE = s.keyE := by
  cases l <;> simp [State.busWrite]
@[simp] theorem State.busWrite_keyv (l : Loc) (w : Word) (s : State) : (s.busWrite l w).keyv = s.keyv := by
  cases l <;> simp [State.busWrite]

theorem State.issue_of_pending {s : State} (w : Word) (hp : s.pending ≠ none) : s.issue w = { s with ovr := true } :=
  if_pos (Option.isSome_iff_ne_none.mpr hp)

theorem State.issue_of_idle {s : State} (w : Word) (hp : s.pending = none) : s.issue w = s.accept w :=
  if_neg (by simp [State.busy, hp])

theorem State.writeWindow_of_pending {s : State} (r : Reg) (f : OpReg → OpReg) (hp : s.pending ≠ none) :
    s.writeWindow r f = { s with wbusy := true } :=
  if_pos (Option.isSome_iff_ne_none.mpr hp)

theorem State.writeWindow_of_idle {s : State} (r : Reg) (f : OpReg → OpReg) (hp : s.pending = none) :
    s.writeWindow r f = { s with regs := s.regs.set r (f (s.regs.get r)) } :=
  if_neg (by simp [State.busy, hp])

/-- A write is an accepted issue, or leaves PENDING, SNAP, LASTCMD and the status of the last completion as they are, but for clearing DONE, and
the operand registers too while a command is pending (R20, R24, R29, R92). -/
theorem State.busWrite_issues_or_frame (l : Loc) (w : Word) (s : State) :
    (s.pending = none ∧ s.busWrite l w = s.accept w)
      ∨ ((s.busWrite l w).pending = s.pending ∧ (s.busWrite l w).snap = s.snap ∧ (s.busWrite l w).lastcmd = s.lastcmd
          ∧ (s.busWrite l w).result = s.result ∧ (s.busWrite l w).errcode = s.errcode ∧ (s.busWrite l w).errsrc = s.errsrc
          ∧ (s.done = false → (s.busWrite l w).done = false)
          ∧ (s.pending ≠ none → (s.busWrite l w).regs = s.regs)) := by
  cases l with
  | cmd =>
    by_cases hp : s.pending = none
    · exact .inl ⟨hp, State.issue_of_idle w hp⟩
    · exact .inr (by simp [State.busWrite, State.issue_of_pending w hp])
  | _ => exact .inr (by simp +contextual [State.busWrite, State.writeWindow_of_pending])

/-! ### LASTCMD and the status of the last completion (R20, R24) -/

/-- What a host step does to the engine: it issues a command, or leaves PENDING, SNAP, LASTCMD and the status of the last completion. -/
theorem host_step_issues_or_frame {s t : State} (h : step s = .next t) (hturn : s.takeTurn.1 = .host) :
    (s.pending = none ∧ t.pending = some t.lastcmd)
      ∨ (t.lastcmd = s.lastcmd ∧ t.errcode = s.errcode ∧ t.errsrc = s.errsrc ∧ t.result = s.result) := by
  obtain ⟨ops, ts, rfl | ⟨l, rfl⟩ | ⟨l, w, -, rfl⟩⟩ := host_step_effect h hturn
  · exact .inr ⟨rfl, rfl, rfl, rfl⟩
  · exact .inr ⟨rfl, rfl, rfl, rfl⟩
  · obtain ⟨hp, hissue⟩ | ⟨-, -, hlast, hres, hcode, hsrc, -, -⟩ :=
      State.busWrite_issues_or_frame l w { s with host := ops, turns := ts }
    · exact .inl ⟨hp, by rw [hissue]; rfl⟩
    · exact .inr ⟨hlast, hcode, hsrc, hres⟩

/-- A completion does not write LASTCMD. -/
theorem engineTurn_lastcmd {s t : State} (h : engineTurn s = .next t) : t.lastcmd = s.lastcmd := by
  obtain ⟨-, hturn⟩ | ⟨w, o, -, hturn, -⟩ := engineTurn_cases s <;> cases h.symm.trans hturn
  · rfl
  · obtain ⟨-, -, -, -, hlast, -⟩ := s.complete_frame o
    exact hlast

/-- Settles O60: only an accepted issue and the reset event write LASTCMD. -/
theorem lastcmdRecordsTheIssuedWord : Obligations.LastcmdRecordsTheIssuedWord := by
  intro s t h
  obtain ⟨hturn, -⟩ | ⟨-, hengine⟩ | ⟨hturn, rfl⟩ := step_cases h
  · obtain ⟨hidle, hissued⟩ | ⟨hlast, -⟩ := host_step_issues_or_frame h hturn
    · exact .inr (.inl ⟨hturn, hidle, hissued⟩)
    · exact .inl hlast
  · exact .inl ((engineTurn_lastcmd hengine).trans s.takeTurn_lastcmd)
  · exact .inr (.inr ⟨hturn, rfl⟩)

/-- Settles O48: the write is `State.writeStatus`, and a host step that does not issue leaves the status of the last completion. -/
theorem statusWriteClearsThreeBits : Obligations.StatusWriteClearsThreeBits := by
  refine ⟨fun s w => ?_, fun s t h hturn => ?_⟩
  · have hclear : ∀ b c : Bool, (b && !c) = if c = true then false else b := by decide
    simp only [State.busWrite, State.writeStatus, hclear]
  · obtain ⟨hidle, hissued⟩ | ⟨-, hcode, hsrc, hres⟩ := host_step_issues_or_frame h hturn
    · exact .inr ⟨hidle, by simp [hissued]⟩
    · exact .inl ⟨hcode, hsrc, hres⟩

/-! ### What a command can answer (R78, R91, R94) -/

/-- R91: these codes concern no operand slot. -/
abbrev ErrCode.Slotless (c : ErrCode) : Prop := c ∈ [ErrCode.noError, .keyNotReady, .keyLocked, .overflow, .illegalCommand]

/-- An error as the commands raise it: a code of R90 other than NONE, with slot 0 where R91 gives no slot. -/
abbrev ErrorPair (c : ErrCode) (src : Slot) : Prop := c ≠ .noError ∧ (c.Slotless → src = .noSlot)

/-- A code that R91 does not list goes with any slot. -/
theorem errorPair_of_not_slotless {c : ErrCode} (src : Slot) (h : ¬c.Slotless) : ErrorPair c src :=
  ⟨fun hc => h (by simp [ErrCode.Slotless, hc]), fun hs => absurd hs h⟩

/-- The answer of an operand check has whatever the error of an unwritten slot and the answers to written operands have (R94, stage 3). -/
theorem needOperand_rec {P : CmdOutcome → Prop} {snap : Bank (Option Int)} {slot : Slot} {r : Reg} {go : Int → CmdOutcome}
    (herr : P (.error .unwrittenOperand slot)) (hgo : ∀ v, snap.get r = some v → P (go v)) : P (needOperand snap slot r go) := by
  rcases needOperand_cases snap slot r go with h | ⟨v, hv, h⟩
  · rwa [h]
  · rw [h]
    exact hgo v hv

/-! #### KEYSETUP (R81) -/

/-- What R81 requires of p, q, d for a key, for either value of V. -/
structure KeyConstructible (k : Nat) (p q d : Int) : Prop where
  two_le_p : 2 ≤ p
  two_le_q : 2 ≤ q
  d_nonneg : 0 ≤ d
  product_lt : (p * q).toNat < 2 ^ k
  coprime : gcdAbs d (totient p q) = 1

/-- The key (p·q, d, modinv(d, φ)). -/
def newKey (p q d : Int) : KeyMaterial :=
  { n := (p * q).toNat, d := d.toNat, e := (modinv d (totient p q)).toNat }

theorem KeyConstructible.totient_pos {k : Nat} {p q d : Int} (h : KeyConstructible k p q d) : 0 < totient p q :=
  Int.mul_pos (by linarith [h.two_le_p]) (by linarith [h.two_le_q])

theorem KeyConstructible.n_eq {k : Nat} {p q d : Int} (h : KeyConstructible k p q d) : ((newKey p q d).n : Int) = p * q :=
  Int.toNat_of_nonneg (Int.mul_nonneg (by linarith [h.two_le_p]) (by linarith [h.two_le_q]))

theorem KeyConstructible.d_eq {k : Nat} {p q d : Int} (h : KeyConstructible k p q d) : ((newKey p q d).d : Int) = d :=
  Int.toNat_of_nonneg h.d_nonneg

theorem KeyConstructible.e_spec {k : Nat} {p q d : Int} (h : KeyConstructible k p q d) :
    IsModinv d ((p - 1) * (q - 1)) (newKey p q d).e := by
  have hspec : IsModinv d (totient p q) (modinv d (totient p q)) := modinv_spec h.totient_pos h.coprime
  rw [newKey, Int.toNat_of_nonneg hspec.1]
  exact hspec

theorem KeyConstructible.e_lt {k : Nat} {p q d : Int} (h : KeyConstructible k p q d) : (newKey p q d).e < 2 ^ k := by
  have he := h.e_spec.2.1
  have hn := h.n_eq
  have hlt : (newKey p q d).n < 2 ^ k := h.product_lt
  have hphi : (p - 1) * (q - 1) < p * q := by nlinarith [h.two_le_p, h.two_le_q]
  omega

theorem keyConstruct_cases (k : Nat) (p q d : Int) :
    (∃ c src, ErrorPair c src ∧ keyConstruct k p q d = .error c src)
      ∨ (KeyConstructible k p q d ∧ keyConstruct k p q d = .ok none false (some (newKey p q d))) := by
  unfold keyConstruct
  split_ifs with hp hq hd hn hg
  iterate 5 exact .inl ⟨_, _, by decide, rfl⟩
  exact .inr ⟨⟨not_lt.mp hp, not_lt.mp hq, not_lt.mp hd, not_le.mp hn, not_not.mp hg⟩, rfl⟩

theorem keysetupCommand_cases (k : Nat) (v : Bool) (p q d : Int) :
    (∃ c src, ErrorPair c src ∧ keysetupCommand k v p q d = .error c src)
      ∨ (KeyConstructible k p q d ∧ keysetupCommand k v p q d = .ok none false (some (newKey p q d))) := by
  unfold keysetupCommand
  split
  · exact .inl ⟨_, _, errorPair_of_not_slotless _ (by decide), rfl⟩
  · exact keyConstruct_cases k p q d

/-- The answers of KEYSETUP: an error, which is KEY_LOCKED when there is a key, or the key made of the operands in SNAP. -/
def CmdOutcome.KeysetupAnswer (s : State) (ra rb rc : Reg) (o : CmdOutcome) : Prop :=
  (∃ c src, ErrorPair c src ∧ (s.keyv = true → c = .keyLocked) ∧ o = .error c src)
    ∨ (s.keyv = false ∧ ∃ p q d, s.snap.get ra = some p ∧ s.snap.get rb = some q ∧ s.snap.get rc = some d
        ∧ KeyConstructible s.params.k p q d ∧ o = .ok none false (some (newKey p q d)))

theorem exec_keysetup_answer (ra rb rc : Reg) (v : Bool) (s : State) :
    ∃ o, exec (.keysetup ra rb rc v) s = .next (s.complete o) ∧ o.KeysetupAnswer s ra rb rc := by
  refine ⟨_, rfl, ?_⟩
  unfold needNoKey
  split
  · exact .inl ⟨_, _, by decide, fun _ => rfl, rfl⟩
  · next hkey =>
    have herror : ∀ slot, (CmdOutcome.error .unwrittenOperand slot).KeysetupAnswer s ra rb rc := fun slot =>
      .inl ⟨_, _, errorPair_of_not_slotless slot (by decide), fun hv => absurd hv hkey, rfl⟩
    refine needOperand_rec (herror .ra) fun p hp => needOperand_rec (herror .rb) fun q hq => needOperand_rec (herror .rc) fun d hd => ?_
    rcases keysetupCommand_cases s.params.k v p q d with ⟨c, src, hpair, ho⟩ | ⟨hcon, ho⟩
    · exact .inl ⟨c, src, hpair, fun hv => absurd hv hkey, ho⟩
    · exact .inr ⟨eq_false_of_ne_true hkey, p, q, d, hp, hq, hd, hcon, ho⟩

/-! #### Every command -/

/-- R38, R78: the operands and the public key registers a command reads have at most K bits. -/
def State.InputsFit (s : State) : Prop :=
  (∀ (r : Reg) (v : Int), s.snap.get r = some v → v.natAbs < 2 ^ s.params.k)
    ∧ s.keyN < 2 ^ s.params.k ∧ s.keyE < 2 ^ s.params.k

/-- A key of at most `k` bits in each register (R35). -/
def KeyMaterial.Fits (k : Nat) (m : KeyMaterial) : Prop := m.n < 2 ^ k ∧ m.d < 2 ^ k ∧ m.e < 2 ^ k

/-- What R36, R78, R91 and R93 let command i answer in state s: a result for its destination, new key state from an unlocked KEYSETUP only, and
either of at most K bits if its inputs are; or an error. -/
def CmdOutcome.Allowed (i : Instr) (s : State) : CmdOutcome → Prop
  | .ok dst _ key =>
    dst.map Prod.fst = i.dst? ∧ (∀ m ∈ key, i.isKeysetup = true ∧ s.keyv = false)
      ∧ (s.InputsFit → (∀ x ∈ dst, x.2 < 2 ^ s.params.k) ∧ ∀ m ∈ key, m.Fits s.params.k)
  | .error c src => ErrorPair c src

section Allowed

variable {i : Instr} {s : State}

theorem allowed_result {rd : Reg} {v : Nat} (hdst : i.dst? = some rd) (hv : s.InputsFit → v < 2 ^ s.params.k) :
    (CmdOutcome.ok (some (rd, v)) false none).Allowed i s := by
  simpa [CmdOutcome.Allowed, hdst] using hv

theorem allowed_flag {res : Bool} (hdst : i.dst? = none) : (CmdOutcome.ok none res none).Allowed i s := by
  simp [CmdOutcome.Allowed, hdst]

theorem needOperand_allowed {slot : Slot} {r : Reg} {go : Int → CmdOutcome}
    (hgo : ∀ v, s.snap.get r = some v → (go v).Allowed i s) : (needOperand s.snap slot r go).Allowed i s :=
  needOperand_rec (P := CmdOutcome.Allowed i s) (errorPair_of_not_slotless slot (by decide)) hgo

theorem needSignature_allowed {r : Reg} {go : Int → CmdOutcome}
    (hgo : ∀ v, s.snap.get r = some v → (go v).Allowed i s) : (needSignature s.snap r go).Allowed i s := by
  cases h : s.snap.get r with
  | none =>
    rw [needSignature_none h]
    exact (by decide : ErrorPair .invalidSignatureFormat .ra)
  | some v =>
    rw [needSignature_some h]
    exact hgo v h

theorem needKey_allowed {o : CmdOutcome} (ho : o.Allowed i s) : (needKey s.keyv o).Allowed i s := by
  unfold needKey
  split
  · exact ho
  · exact (by decide : ErrorPair .keyNotReady .noSlot)

theorem hashImage_allowed {value : Int} {exponent : Nat} {go : Nat → CmdOutcome}
    (hgo : ∀ x, (s.InputsFit → x < 2 ^ s.params.k) → (go x).Allowed i s) : (hashImage s.keyN value exponent .ra go).Allowed i s := by
  unfold hashImage
  split
  · exact (by decide : ErrorPair .modulusTooSmall .ra)
  · next hlt =>
    refine hgo _ fun hfit => ?_
    have hrange := modpow_range value (x := exponent) (m := s.keyN) (by omega)
    have := hfit.2.1
    omega

/-- A value no larger than an operand fits. -/
theorem toNat_lt_of_le_operand {r : Reg} {m x : Int} (hm : s.snap.get r = some m) (hx : x ≤ m) (hfit : s.InputsFit) :
    x.toNat < 2 ^ s.params.k := by
  have := hfit.1 r m hm
  omega

/-- The modulus check and the remainder MODRED, MODMUL and MODPOW share (R69 to R71). -/
theorem modulus_check_allowed {rd rc : Reg} {x m : Int} (hdst : i.dst? = some rd) (hm : s.snap.get rc = some m) (hx : 0 < m → x < m) :
    (if m ≤ 0 then CmdOutcome.error .badOperand .rc else .ok (some (rd, x.toNat)) false none).Allowed i s := by
  split
  · exact (by decide : ErrorPair .badOperand .rc)
  · next hpos => exact allowed_result hdst (toNat_lt_of_le_operand hm (hx (not_le.mp hpos)).le)

theorem modpowCommand_allowed {rd rc : Reg} {b x m : Int} (hdst : i.dst? = some rd) (hm : s.snap.get rc = some m) :
    (modpowCommand rd b x m).Allowed i s := by
  unfold modpowCommand
  split
  · exact (by decide : ErrorPair .badOperand .rb)
  · exact modulus_check_allowed hdst hm fun hpos => (modpow_range b hpos).2

theorem modinvCommand_allowed {rd rc : Reg} {v m : Int} (hdst : i.dst? = some rd) (hm : s.snap.get rc = some m) :
    (modinvCommand rd v m).Allowed i s := by
  unfold modinvCommand
  split_ifs with hpos hg
  · exact (by decide : ErrorPair .badOperand .rc)
  · exact (by decide : ErrorPair .noInverse .ra)
  · exact allowed_result hdst (toNat_lt_of_le_operand hm (modinv_spec (not_le.mp hpos) (not_not.mp hg)).2.1.le)

theorem gcdAbs_lt {a b : Int} {n : Nat} (ha : a.natAbs < n) (hb : b.natAbs < n) : gcdAbs a b < n := by
  rcases Nat.eq_zero_or_pos a.natAbs with h0 | hpos
  · rwa [gcdAbs, h0, Nat.gcd_zero_left]
  · exact (Nat.gcd_le_left _ hpos).trans_lt ha

/-- The answer of KEYSETUP is one that R36, R78 and R91 allow. -/
theorem CmdOutcome.KeysetupAnswer.allowed {o : CmdOutcome} {ra rb rc : Reg} {v : Bool} (h : o.KeysetupAnswer s ra rb rc) :
    o.Allowed (.keysetup ra rb rc v) s := by
  obtain ⟨c, src, hpair, -, rfl⟩ | ⟨hkey, p, q, d, -, -, hd, hcon, rfl⟩ := h
  · exact hpair
  · refine ⟨rfl, fun _ _ => ⟨rfl, hkey⟩, fun hfit => ⟨by simp, fun m hm => ?_⟩⟩
    obtain rfl : newKey p q d = m := by simpa using hm
    exact ⟨hcon.product_lt, toNat_lt_of_le_operand hd le_rfl hfit, hcon.e_lt⟩

end Allowed

/-- The answer of a word that is no command could be any command's (R94, stage 1). -/
theorem illegalCommand_allowed (i : Instr) (s : State) : (CmdOutcome.error .illegalCommand .noSlot).Allowed i s :=
  (by decide : ErrorPair .illegalCommand .noSlot)

/-- Every command completes with an answer that is allowed. -/
theorem exec_allowed (i : Instr) (s : State) : ∃ o, exec i s = .next (s.complete o) ∧ o.Allowed i s := by
  cases i with
  | nop => exact ⟨_, rfl, allowed_flag rfl⟩
  | modred rd ra rc =>
    exact ⟨_, rfl, needOperand_allowed fun a _ => needOperand_allowed fun m hm =>
      modulus_check_allowed rfl hm fun hpos => (emod_spec a hpos).2.1⟩
  | modmul rd ra rb rc =>
    exact ⟨_, rfl, needOperand_allowed fun a _ => needOperand_allowed fun b _ => needOperand_allowed fun m hm =>
      modulus_check_allowed rfl hm fun hpos => (emod_spec (a * b) hpos).2.1⟩
  | modpow rd ra rb rc =>
    exact ⟨_, rfl, needOperand_allowed fun b _ => needOperand_allowed fun x _ => needOperand_allowed fun m hm =>
      modpowCommand_allowed rfl hm⟩
  | gcd rd ra rb =>
    exact ⟨_, rfl, needOperand_allowed fun a ha => needOperand_allowed fun b hb =>
      allowed_result rfl fun hfit => gcdAbs_lt (hfit.1 ra a ha) (hfit.1 rb b hb)⟩
  | modinv rd ra rc =>
    exact ⟨_, rfl, needOperand_allowed fun v _ => needOperand_allowed fun m hm => modinvCommand_allowed rfl hm⟩
  | isprime ra => exact ⟨_, rfl, needOperand_allowed fun v _ => allowed_flag rfl⟩
  | keysetup ra rb rc v =>
    obtain ⟨o, ho, hanswer⟩ := exec_keysetup_answer ra rb rc v s
    exact ⟨o, ho, hanswer.allowed⟩
  | sign rd ra =>
    exact ⟨_, rfl, needKey_allowed (needOperand_allowed fun h _ => hashImage_allowed fun sig hsig => allowed_result rfl hsig)⟩
  | verify ra rb =>
    exact ⟨_, rfl, needKey_allowed (needSignature_allowed fun sig _ => needOperand_allowed fun h _ =>
      hashImage_allowed fun hp _ => allowed_flag rfl)⟩
  | keyrd rd sel =>
    refine ⟨_, rfl, needKey_allowed (allowed_result rfl fun hfit => ?_)⟩
    cases sel
    · exact hfit.2.1
    · exact hfit.2.2

/-- What the engine's turn can do: nothing while no command is pending, else the completion of an allowed answer, or of ILLEGAL_COMMAND (R93, R94). -/
theorem engineTurn_effect {s t : State} (h : engineTurn s = .next t) :
    (s.pending = none ∧ t = s)
      ∨ ∃ w o, s.pending = some w ∧ t = s.complete o
          ∧ ((∃ i, decode w = .cmd i ∧ o.Allowed i s) ∨ o = .error .illegalCommand .noSlot) := by
  obtain ⟨hp, hturn⟩ | ⟨w, o, hp, hturn, ⟨i, hd, hexec⟩ | ⟨-, hillegal⟩⟩ := engineTurn_cases s <;> cases h.symm.trans hturn
  · exact .inl ⟨hp, rfl⟩
  · obtain ⟨o', hexec', hallowed⟩ := exec_allowed i s
    exact .inr ⟨w, o', hp, Host.Outcome.next.inj (hexec.symm.trans hexec'), .inl ⟨i, hd, hallowed⟩⟩
  · exact .inr ⟨w, o, hp, rfl, .inr hillegal⟩

/-! ### What a completion changes (R32, R36, R93) -/

/-- An allowed answer changes no operand register but the destination. -/
theorem CmdOutcome.Allowed.regs_frame {o : CmdOutcome} {i : Instr} {s : State} (h : o.Allowed i s) {r : Reg} (hr : i.dst? ≠ some r) :
    (s.complete o).regs.get r = s.regs.get r := by
  rcases s.complete_regs o with hregs | ⟨rd, v, res, key, rfl, hregs⟩
  · rw [hregs]
  · obtain ⟨hdst, -⟩ := h
    rw [hregs, Bank.get_set_ne]
    rintro rfl
    exact hr hdst.symm

/-- An allowed answer keeps the key state, or is an unlocked KEYSETUP that succeeds. -/
theorem CmdOutcome.Allowed.key_frame {o : CmdOutcome} {i : Instr} {s : State} (h : o.Allowed i s) :
    SameKey (s.complete o) s
      ∨ (i.isKeysetup = true ∧ s.keyv = false ∧ (s.complete o).keyv = true ∧ (s.complete o).errcode = .noError) := by
  match o with
  | .error c src => exact .inl ⟨rfl, rfl, rfl, rfl⟩
  | .ok dst res none => exact .inl (by simp [SameKey, State.complete, State.completeOk])
  | .ok dst res (some m) =>
    obtain ⟨-, hkey, -⟩ := h
    obtain ⟨hi, hv⟩ := hkey m rfl
    exact .inr ⟨hi, hv, rfl, rfl⟩

/-- Settles O27: `exec_allowed` says what the answer can be, `exec_frame` what no answer touches. -/
theorem commandFrame : Obligations.CommandFrame := by
  intro i s t h
  refine ⟨?_, ?_, exec_frame h⟩ <;> obtain ⟨o, ho, hallowed⟩ := exec_allowed i s <;> cases h.symm.trans ho
  · exact fun r hr => hallowed.regs_frame hr
  · intro hi
    rcases hallowed.key_frame with hsame | ⟨hkeysetup, -⟩
    · exact hsame
    · simp [hi] at hkeysetup

/-! ### The key state (R36) -/

/-- No host access writes the key state. -/
theorem host_step_sameKey {s t : State} (h : step s = .next t) (hturn : s.takeTurn.1 = .host) : SameKey t s := by
  obtain ⟨ops, ts, rfl | ⟨l, rfl⟩ | ⟨l, w, -, rfl⟩⟩ := host_step_effect h hturn <;> simp [SameKey]

/-- The engine keeps the key state, or completes an unlocked KEYSETUP with no error. -/
theorem engineTurn_key {s t : State} (h : engineTurn s = .next t) :
    SameKey t s
      ∨ (s.keyv = false ∧ t.keyv = true ∧ t.errcode = .noError
          ∧ ∃ w i, s.pending = some w ∧ decode w = .cmd i ∧ i.isKeysetup = true) := by
  obtain ⟨-, rfl⟩ | ⟨w, o, hp, rfl, ⟨i, hd, hallowed⟩ | rfl⟩ := engineTurn_effect h
  · exact .inl ⟨rfl, rfl, rfl, rfl⟩
  · exact hallowed.key_frame.imp_right fun ⟨hi, hv, hv', herr⟩ => ⟨hv, hv', herr, w, i, hp, hd, hi⟩
  · exact .inl ⟨rfl, rfl, rfl, rfl⟩

/-- Settles O31: the key state over a step by who moves; what KEYSETUP does by its answers (`exec_keysetup_answer`). -/
theorem keyStateHasExactlyTwoTransitions : Obligations.KeyStateHasExactlyTwoTransitions := by
  refine ⟨fun s t h => ?_, fun s t ra rb rc v h => ?_, fun s hturn => ⟨_, step_of_reset hturn, rfl⟩⟩
  · obtain ⟨hturn, -⟩ | ⟨hturn, hengine⟩ | ⟨hturn, rfl⟩ := step_cases h
    · exact .inl (host_step_sameKey h hturn)
    · have hkey := engineTurn_key hengine
      simp only [SameKey, State.takeTurn_keyv, State.takeTurn_keyN, State.takeTurn_keyD, State.takeTurn_keyE,
        State.takeTurn_pending] at hkey
      exact hkey.imp_right fun hsetup => .inl ⟨hturn, hsetup⟩
    · exact .inr (.inr ⟨hturn, rfl⟩)
  · obtain ⟨o, ho, hanswer⟩ := exec_keysetup_answer ra rb rc v s
    cases h.symm.trans ho
    obtain ⟨c, src, ⟨hc, -⟩, hlocked, rfl⟩ | ⟨hkey, p, q, d, hp, hq, hd, hcon, rfl⟩ := hanswer
    · exact ⟨fun hok => absurd hok hc, fun _ => ⟨rfl, rfl, rfl, rfl⟩, hlocked⟩
    · exact ⟨fun _ => ⟨hkey, rfl, p, q, d, hp, hq, hd, hcon.n_eq, hcon.d_eq, hcon.e_spec⟩, fun herr => absurd rfl herr,
        fun hv => by simp [hkey] at hv⟩

/-! ### KEYRD and IRQ (R34, R84, R96) -/

/-- Settles O24: with a key, stage 2 passes and the selected register is the result. -/
theorem keyrdCopiesAPublicKeyRegister : Obligations.KeyrdCopiesAPublicKeyRegister := by
  intro s rd hkey
  have hexec : ∀ sel, exec (.keyrd rd sel) s = .next (s.succeeded (s.regsWith rd (s.publicKey sel)) false) := fun sel => by
    rw [exec, execKeyrd, needKey, if_pos hkey, finishCommand_result]
  exact ⟨hexec .n, hexec .e⟩

/-- Settles O52: IRQ is IE and DONE; a completion sets DONE and keeps IE, the two writes clear DONE. -/
theorem irqFollowsDone : Obligations.IrqFollowsDone := by
  refine ⟨fun i s t h => ?_, fun s w hidle => ?_, fun s w hw => ?_, rfl⟩
  · obtain ⟨o, ho⟩ := exec_completes i s
    obtain ⟨-, hie, -⟩ := exec_frame h
    cases h.symm.trans ho
    simp [State.irq, hie, (s.complete_ends o).2]
  · rw [State.busWrite, State.issue_of_idle w hidle]
    simp [State.irq]
  · simp [State.busWrite, State.irq, hw]

/-! ### The block's invariant (R30, R35, R38, R78, R91, R112) -/

/-- A write in the operand window keeps K bits if what it writes has them. -/
theorem State.writeWindow_mag_lt {s : State} (hfit : ∀ r, (s.regs.get r).mag < 2 ^ s.params.k) {q : Reg} {f : OpReg → OpReg}
    (hf : (f (s.regs.get q)).mag < 2 ^ s.params.k) (r : Reg) : ((s.writeWindow q f).regs.get r).mag < 2 ^ s.params.k := by
  unfold State.writeWindow
  split
  · exact hfit r
  · rw [Bank.get_set]
    split
    · exact hf
    · exact hfit r

/-- A register's magnitude after a write fits K bits if it did before and the register exists (R26, R28, R30). -/
theorem State.busWrite_mag_lt {s : State} {l : Loc} (w : Word) (hp : s.params.wf = true) (hl : l.mapped s.params = true)
    (hfit : ∀ r, (s.regs.get r).mag < 2 ^ s.params.k) (r : Reg) : ((s.busWrite l w).regs.get r).mag < 2 ^ s.params.k := by
  cases l with
  | rmeta q =>
    refine State.writeWindow_mag_lt hfit ?_ r
    unfold OpReg.writeMeta
    split_ifs
    · positivity
    · exact hfit q
  | rdata q i =>
    have hk := (Params.words_of_wf hp).2
    refine State.writeWindow_mag_lt hfit ?_ r
    have hq := hfit q
    rw [hk] at hq ⊢
    exact setMagWord_lt w (of_decide_eq_true hl) hq
  | _ => simpa [State.busWrite] using hfit r

/-- A write to a register that exists keeps the invariant: it issues with a fresh SNAP and a cleared status, or touches neither. -/
theorem State.Inv.busWrite {s : State} (h : s.Inv) {l : Loc} (w : Word) (hl : l.mapped s.params = true) : (s.busWrite l w).Inv := by
  obtain ⟨⟨hp, hfit, hkey⟩, hsnap, hbusy, hsrc⟩ := h
  refine ⟨⟨by simpa using hp, by simpa using s.busWrite_mag_lt w hp hl hfit, by simpa using hkey⟩, ?_⟩
  obtain ⟨-, hissue⟩ | ⟨hpend, hsnap', -, hres, hcode, hsrc', hdone, hregs⟩ := s.busWrite_issues_or_frame l w
  · rw [hissue]
    exact ⟨fun _ r => by simp, fun _ => ⟨rfl, rfl, rfl, rfl⟩, fun _ => rfl⟩
  · refine ⟨fun hb r => ?_, fun hb => ?_, ?_⟩
    · rw [hpend] at hb
      rw [hsnap', hregs hb, hsnap hb]
    · rw [hpend] at hb
      obtain ⟨h1, h2, h3, h4⟩ := hbusy hb
      exact ⟨hdone h1, hres.trans h2, hcode.trans h3, hsrc'.trans h4⟩
    · rwa [hcode, hsrc']

/-- While a command is pending, SNAP holds the values of registers of K bits. -/
theorem State.Inv.inputsFit {s : State} (h : s.Inv) (hp : s.pending ≠ none) : s.InputsFit := by
  obtain ⟨⟨-, hfit, hn, -, he⟩, hsnap, -⟩ := h
  refine ⟨fun r v hv => ?_, hn, he⟩
  rw [hsnap hp] at hv
  obtain ⟨-, rfl⟩ := OpReg.operand_eq_some.mp hv
  rw [OpReg.natAbs_value]
  exact hfit r

/-- A completion with a result and a key of at most K bits keeps the widths. -/
theorem State.Wf.completeOk {s : State} (h : s.Wf) {dst : Option (Reg × Nat)} {res : Bool} {key : Option KeyMaterial}
    (hdst : ∀ x ∈ dst, x.2 < 2 ^ s.params.k) (hkey : ∀ m ∈ key, m.Fits s.params.k) : (s.completeOk dst res key).Wf := by
  obtain ⟨hp, hfit, hkeys⟩ := h
  have hparams : (s.completeOk dst res key).params = s.params := by simp [State.completeOk]
  refine ⟨by rwa [hparams], fun r => ?_, ?_⟩
  · cases dst with
    | none => simpa [State.completeOk] using hfit r
    | some x =>
      have hregs : (s.completeOk (some x) res key).regs = s.regs.set x.1 (.ofResult x.2) := State.writeKey_regs key _
      rw [hregs, hparams, Bank.get_set]
      split
      · exact hdst x rfl
      · exact hfit r
  · cases key with
    | none => simpa [State.completeOk] using hkeys
    | some m =>
      rw [hparams]
      exact hkey m rfl

/-- A completion with an allowed answer keeps the invariant. -/
theorem State.Inv.complete {s : State} (h : s.Inv) (hin : s.InputsFit) {i : Instr} {o : CmdOutcome} (ho : o.Allowed i s) :
    (s.complete o).Inv := by
  have hidle : (s.complete o).pending = none := (s.complete_ends o).1
  refine ⟨?_, fun hb => absurd hidle hb, fun hb => absurd hidle hb, ?_⟩
  · match o with
    | .error c src => exact h.1
    | .ok dst res key =>
      obtain ⟨-, -, hfits⟩ := ho
      obtain ⟨hdst, hkey⟩ := hfits hin
      exact State.Wf.completeOk h.1 hdst hkey
  · match o with
    | .error c src => exact ho.2
    | .ok dst res key => exact fun _ => rfl

theorem State.Inv.engineTurn {s t : State} (hs : s.Inv) (h : engineTurn s = .next t) : t.Inv := by
  obtain ⟨-, rfl⟩ | ⟨w, o, hp, rfl, hanswer⟩ := engineTurn_effect h
  · exact hs
  · have hin : s.InputsFit := hs.inputsFit (by simp [hp])
    obtain ⟨i, -, hallowed⟩ | rfl := hanswer
    · exact hs.complete hin hallowed
    · exact hs.complete hin (illegalCommand_allowed .nop s)

/-- The reset values have the invariant for every allowed K and every draw (R107). -/
theorem State.afterReset_inv {p : Params} (hp : p.wf = true) (draw : Nat) : (State.afterReset p draw).Inv := by
  have hfit : ∀ d, drawMag d p.words < 2 ^ p.k := fun d => by
    rw [(Params.words_of_wf hp).2]
    exact drawMag_lt d p.words
  refine ⟨⟨hp, fun r => ?_, hfit _, hfit _, hfit _⟩, fun hb => absurd rfl hb, fun hb => absurd rfl hb, fun _ => rfl⟩
  cases r <;> exact hfit _

/-- Settles O37: each of the three kinds of step keeps the invariant, and the list of turns is no part of it. -/
theorem stepKeepsTheInvariant : Obligations.StepKeepsTheInvariant := by
  intro s t hs h
  obtain ⟨hturn, -⟩ | ⟨-, hengine⟩ | ⟨-, rfl⟩ := step_cases h
  · obtain ⟨ops, ts, rfl | ⟨l, rfl⟩ | ⟨l, w, hl, rfl⟩⟩ := host_step_effect h hturn
    · exact hs
    · exact hs
    · exact State.Inv.busWrite (s := { s with host := ops, turns := ts }) hs w hl
  · rw [State.takeTurn_snd] at hengine
    exact State.Inv.engineTurn (s := { s with turns := s.turns.tail }) hs hengine
  · exact State.afterReset_inv (p := s.takeTurn.2.params) (by rw [State.takeTurn_params]; exact hs.1.1) s.takeTurn.2.draws

/-! ### KEY_D is read by SIGN only (R37, R80) -/

/-- The state with another KEY_D. -/
def State.withKeyD (d : Nat) (s : State) : State := { s with keyD := d }

/-- Answers that differ in KEY_D only look the same. -/
theorem hideKeyD_withKeyD (d : Nat) (s : State) : hideKeyD (.next (s.withKeyD d)) = hideKeyD (.next s) := rfl

theorem State.takeTurn_withKeyD (d : Nat) (s : State) : (s.withKeyD d).takeTurn = (s.takeTurn.1, s.takeTurn.2.withKeyD d) := by
  have hbusy : (s.withKeyD d).busy = s.busy := rfl
  have hturns : (s.withKeyD d).turns = s.turns := rfl
  unfold State.takeTurn
  rw [hbusy, hturns]
  cases s.turns <;> rfl

theorem State.writeWindow_withKeyD (d : Nat) (r : Reg) (f : OpReg → OpReg) (s : State) :
    (s.withKeyD d).writeWindow r f = (s.writeWindow r f).withKeyD d := by
  rw [State.writeWindow, State.writeWindow, apply_ite (State.withKeyD d)]
  rfl

theorem State.issue_withKeyD (d : Nat) (w : Word) (s : State) : (s.withKeyD d).issue w = (s.issue w).withKeyD d := by
  rw [State.issue, State.issue, apply_ite (State.withKeyD d)]
  rfl

/-- No register of the aperture shows KEY_D or stores it (R16, R37). -/
theorem State.accessAt_withKeyD (d : Nat) (a : Access) (l : Loc) (s : State) :
    (s.withKeyD d).accessAt a l = (s.accessAt a l).withKeyD d := by
  cases a with
  | read ad width => cases l <;> rfl
  | write ad width w =>
    cases l with
    | cmd => exact s.issue_withKeyD d w
    | rmeta r => exact s.writeWindow_withKeyD d r _
    | rdata r i => exact s.writeWindow_withKeyD d r _
    | _ => rfl

theorem busAccess_hides_keyD (a : Access) (d : Nat) (s : State) :
    hideKeyD (busAccess a (s.withKeyD d)) = hideKeyD (busAccess a s) := by
  have hparams : (s.withKeyD d).params = s.params := rfl
  unfold busAccess
  rw [hparams]
  split
  · rfl
  · split
    · rfl
    · split
      · rfl
      · rw [State.accessAt_withKeyD, hideKeyD_withKeyD]

theorem hostTurn_hides_keyD (d : Nat) (s : State) : hideKeyD (hostTurn (s.withKeyD d)) = hideKeyD (hostTurn s) := by
  have hhost : (s.withKeyD d).host = s.host := rfl
  unfold hostTurn
  rw [hhost]
  split
  · rfl
  · next a rest hs => exact busAccess_hides_keyD a d { s with host := rest }
  · next rest hs => exact busAccess_hides_keyD _ d { s with host := if s.statusWord.getLsbD 0 then s.host else rest }

/-- A completion with an outcome that does not depend on KEY_D shows nothing of it. -/
theorem complete_hides_keyD (o : CmdOutcome) (d : Nat) (s : State) :
    hideKeyD (.next ((s.withKeyD d).complete o)) = hideKeyD (.next (s.complete o)) := by
  match o with
  | .error c src => rfl
  | .ok none res none => rfl
  | .ok (some x) res none => rfl
  | .ok none res (some m) => rfl
  | .ok (some x) res (some m) => rfl

/-- A command other than SIGN has one outcome for all KEY_D (R80). -/
theorem exec_withKeyD {i : Instr} (hi : i.isSign = false) (d : Nat) (s : State) :
    ∃ o, exec i (s.withKeyD d) = .next ((s.withKeyD d).complete o) ∧ exec i s = .next (s.complete o) := by
  cases i with
  | sign rd ra => cases hi
  | keyrd rd sel => cases sel <;> exact ⟨_, rfl, rfl⟩
  | _ => exact ⟨_, rfl, rfl⟩

theorem engineTurn_hides_keyD {s : State} (hsign : ∀ w i, s.pending = some w → decode w = .cmd i → i.isSign = false) (d : Nat) :
    hideKeyD (engineTurn (s.withKeyD d)) = hideKeyD (engineTurn s) := by
  have hpending : (s.withKeyD d).pending = s.pending := rfl
  unfold engineTurn
  rw [hpending]
  split
  · rfl
  · next w hp =>
    split
    · next i hd =>
      obtain ⟨o, ho, ho'⟩ := exec_withKeyD (hsign w i hp hd) d s
      rw [ho, ho', complete_hides_keyD]
    · exact complete_hides_keyD _ d s

/-- Settles O36: each kind of step commutes with changing KEY_D, up to KEY_D itself. -/
theorem onlySignUsesTheSecretExponent : Obligations.OnlySignUsesTheSecretExponent := by
  intro s d hsign
  change hideKeyD (step (s.withKeyD d)) = hideKeyD (step s)
  unfold step
  rw [State.takeTurn_withKeyD]
  cases s.takeTurn.1 with
  | host => exact hostTurn_hides_keyD d s.takeTurn.2
  | engine => exact engineTurn_hides_keyD (by simpa using hsign) d
  | reset => rfl

/-! ### Reads and writes of the registers (R18 to R29) -/

/-- A register reads as always on an idle engine, and outside the operand window whatever is pending (R29). -/
theorem State.readValue_of_no_draw {s : State} {l : Loc} (h : s.pending = none ∨ l.isWindow = false) : s.readValue l = s.locWord l := by
  have hdraws : s.drawsOn l = false := by rcases h with h | h <;> simp [State.drawsOn, State.busy, h]
  simp [State.readValue, hdraws]

theorem State.drawsOn_of_pending {s : State} (l : Loc) (hp : s.pending ≠ none) : s.drawsOn l = l.isWindow := by
  have hb : s.busy = true := Option.isSome_iff_ne_none.mpr hp
  simp [State.drawsOn, hb]

/-- Settles O47: a pending command makes `State.drawsOn` the test for the operand window. -/
theorem windowReadsWhileBusyAreDraws : Obligations.WindowReadsWhileBusyAreDraws := by
  intro s l hp
  refine ⟨fun hwindow => ?_, fun hother => ?_⟩
  · have hdraws : s.drawsOn l = true := (s.drawsOn_of_pending l hp).trans hwindow
    simp [State.busRead, State.readValue, hdraws]
  · have hdraws : s.drawsOn l = false := (s.drawsOn_of_pending l hp).trans hother
    simp [State.busRead, State.readValue, hdraws]

/-- Settles O46: both cases of a write in the operand window. -/
theorem metaWriteSetsSignValidAndZero : Obligations.MetaWriteSetsSignValidAndZero := fun _ r w =>
  ⟨State.writeWindow_of_idle r (OpReg.writeMeta w), State.writeWindow_of_pending r (OpReg.writeMeta w)⟩

/-- An RDATA write in a register file shows at its own word only (R28). -/
theorem State.locWord_writeData_ne {s : State} {r : Reg} {i : Nat} (w : Word) {l : Loc} (hl : l ≠ .rdata r i) :
    State.locWord l { s with regs := s.regs.set r ((s.regs.get r).writeData i w) } = s.locWord l := by
  cases l with
  | rmeta q =>
    by_cases hq : q = r
    · subst hq
      simp [State.locWord, OpReg.metaWord, OpReg.writeData]
    · simp [State.locWord, hq]
  | rdata q j =>
    by_cases hq : q = r
    · subst hq
      have hj : j ≠ i := fun hj => hl (by rw [hj])
      simp [State.locWord, OpReg.writeData, magWord_setMagWord_ne _ _ _ w hj]
    · simp [State.locWord, hq]
  | _ => rfl

/-- Settles O45: on an idle engine every read is of the register file, where the write shows at one word. -/
theorem dataWriteSetsOneWord : Obligations.DataWriteSetsOneWord := by
  intro s r i w
  refine ⟨fun hp => ?_, State.writeWindow_of_pending r (OpReg.writeData i w)⟩
  have hwrite : s.busWrite (.rdata r i) w = { s with regs := s.regs.set r ((s.regs.get r).writeData i w) } :=
    State.writeWindow_of_idle r (OpReg.writeData i w) hp
  have hp' : (s.busWrite (.rdata r i) w).pending = none := by rw [hwrite, hp]
  refine ⟨?_, fun l hl => ?_, ?_, ?_⟩
  · rw [State.readValue_of_no_draw (.inl hp'), hwrite]
    simp [State.locWord, OpReg.writeData]
  · rw [State.readValue_of_no_draw (.inl hp'), State.readValue_of_no_draw (.inl hp), hwrite, State.locWord_writeData_ne w hl]
  · simp [hwrite, OpReg.writeData]
  · simp [hwrite, OpReg.writeData]

/-! ### Register words as numbers (R12, R18, R19, R23) -/

/-- R12: in `{a, b}` a is the high part. -/
theorem toNat_append_eq {m n : Nat} (x : BitVec m) (y : BitVec n) : (x ++ y).toNat = x.toNat * 2 ^ n + y.toNat := by
  rw [BitVec.toNat_append, ← Nat.shiftLeft_add_eq_or_of_lt y.isLt, Nat.shiftLeft_eq]

theorem toNat_err (s : State) : s.err.toNat = if s.errcode ≠ .noError then 1 else 0 := by
  unfold State.err
  cases s.errcode <;> rfl

theorem toNat_busy (s : State) : s.busy.toNat = if s.pending ≠ none then 1 else 0 := by
  unfold State.busy
  cases s.pending <;> rfl

/-- Settles O49: STATUS is a concatenation, and each field is worth its value at its bit position. -/
theorem statusWordLayout : Obligations.StatusWordLayout := by
  intro s
  refine ⟨?_, ?_⟩
  · rw [State.readValue_of_no_draw (.inr rfl), State.locWord, State.statusWord]
    simp only [toNat_append_eq, BitVec.toNat_ofBool, toNat_err, toNat_busy, BitVec.toNat_ofNat]
    omega
  · cases s.errcode <;> decide

/-- Settles O51: CTRL is outside the operand window, so its word is read whatever is pending. -/
theorem ctrlHoldsTheInterruptEnable : Obligations.CtrlHoldsTheInterruptEnable := by
  refine ⟨fun s w => ⟨rfl, ?_⟩, rfl⟩
  rw [State.readValue_of_no_draw (.inr rfl), State.locWord, State.ctrlWord, toNat_append_eq, BitVec.toNat_ofBool]
  simp

/-- PARAM is K and NREG at their bit positions for every allowed K (R23). -/
theorem paramWord_toNat {p : Params} (hp : p.wf = true) : (paramWord p).toNat = p.k + 8 * 2 ^ 16 := by
  have hk := Params.words_of_wf hp
  simp only [paramWord, toNat_append_eq, Config.nreg, BitVec.toNat_ofNat]
  omega

/-- Settles O53: none of the registers is in the operand window, so each reads its word. -/
theorem constantAndReadOnlyRegisters : Obligations.ConstantAndReadOnlyRegisters := by
  refine ⟨fun s => ?_, by decide, fun _ _ => ⟨rfl, rfl, rfl⟩⟩
  have hread : ∀ l : Loc, l.isWindow = false → s.readValue l = s.locWord l := fun _ hl => State.readValue_of_no_draw (.inr hl)
  refine ⟨hread .id rfl, hread .cmd rfl, hread .lastcmd rfl, fun hp => ?_⟩
  rw [hread .param rfl]
  exact paramWord_toNat hp

end Sys2Proof.Machine

namespace Sys2Proof.Machine

/-! ### A magnitude as the sum of its words (R47) -/

theorem magWord_toNat (mag i : Nat) : (magWord mag i).toNat = mag / 2 ^ (32 * i) % 2 ^ 32 :=
  BitVec.toNat_ofNat _ _

/-- The lowest n + 1 words are the lowest n and word n above them. -/
theorem mod_words_succ (mag n : Nat) :
    mag % 2 ^ (32 * (n + 1)) = mag % 2 ^ (32 * n) + (magWord mag n).toNat * 2 ^ (32 * n) := by
  rw [Nat.mul_succ, pow_add, Nat.mod_mul, magWord_toNat, Nat.mul_comm (2 ^ (32 * n))]

/-- The lowest n words are worth their sum. -/
theorem mod_eq_sum_words (mag : Nat) : ∀ n : Nat,
    mag % 2 ^ (32 * n) = ∑ i ∈ Finset.range n, (magWord mag i).toNat * 2 ^ (32 * i)
  | 0 => Nat.mod_one mag
  | n + 1 => by rw [mod_words_succ, Finset.sum_range_succ, mod_eq_sum_words mag n]

/-- A magnitude after the words `ws i` are written at the indices i of a list, in its order (R28). -/
def setMagWords (ws : Nat → Word) (mag : Nat) (is : List Nat) : Nat :=
  is.foldl (fun m i => setMagWord m i (ws i)) mag

/-- Writes inside the register keep MAG within its bits (R30). -/
theorem setMagWords_lt {mag n : Nat} (ws : Nat → Word) {is : List Nat} (his : ∀ i ∈ is, i < n) (h : mag < 2 ^ (32 * n)) :
    setMagWords ws mag is < 2 ^ (32 * n) :=
  List.foldlRecOn (motive := (· < 2 ^ (32 * n))) is _ h fun _ hm i hi => setMagWord_lt (ws i) (his i hi) hm

/-- Once words 0 to n − 1 are written in order, the lowest n words are worth their sum, whatever MAG was. -/
theorem setMagWords_range_mod (ws : Nat → Word) (mag : Nat) : ∀ n : Nat,
    setMagWords ws mag (List.range n) % 2 ^ (32 * n) = ∑ i ∈ Finset.range n, (ws i).toNat * 2 ^ (32 * i)
  | 0 => Nat.mod_one _
  | n + 1 => by
    have hlast : setMagWords ws mag (List.range (n + 1)) = setMagWord (setMagWords ws mag (List.range n)) n (ws n) := by
      simp [setMagWords, List.range_succ]
    rw [hlast, mod_words_succ, setMagWord_mod, magWord_setMagWord_same, setMagWords_range_mod ws mag n,
      Finset.sum_range_succ]

/-- On an idle engine an RDATA write sets one word of MAG (R28). -/
theorem State.busWrite_rdata_mag {s : State} (hp : s.pending = none) (r : Reg) (i : Nat) (w : Word) :
    ((s.busWrite (.rdata r i) w).regs.get r).mag = setMagWord (s.regs.get r).mag i w := by
  rw [State.busWrite, State.writeWindow_of_idle r _ hp, Bank.get_set_same, OpReg.writeData]

/-- On an idle engine a sequence of RDATA writes sets the words of MAG one after the other: none of them starts a command. -/
theorem foldl_busWrite_rdata_mag (r : Reg) (ws : Nat → Word) (is : List Nat) {s : State} (hp : s.pending = none) :
    ((is.foldl (fun u i => u.busWrite (.rdata r i) (ws i)) s).regs.get r).mag = setMagWords ws (s.regs.get r).mag is := by
  induction is generalizing s with
  | nil => rfl
  | cons i is ih =>
    have hidle : (s.busWrite (.rdata r i) (ws i)).pending = none := (State.writeWindow_pending r _ s).trans hp
    rw [List.foldl_cons, ih hidle, State.busWrite_rdata_mag hp]
    rfl

/-- Settles O44: MAG has no bits above its words, so the sums over the lowest K/32 words, read or written, are the whole of it. -/
theorem magnitudeIsTheSumOfItsWords : Obligations.MagnitudeIsTheSumOfItsWords := by
  rintro s r ws ⟨hparams, hfit, -⟩ hp
  have hlt : (s.regs.get r).mag < 2 ^ (32 * s.params.words) := (Params.words_of_wf hparams).2 ▸ hfit r
  have hread : ∀ i, s.readValue (.rdata r i) = magWord (s.regs.get r).mag i := fun i => State.readValue_of_no_draw (.inl hp)
  refine ⟨fun i => ?_, ?_, ?_⟩
  · rw [hread, magWord_toNat]
  · simp only [hread]
    rw [← mod_eq_sum_words, Nat.mod_eq_of_lt hlt]
  · rw [foldl_busWrite_rdata_mag r ws _ hp, ← setMagWords_range_mod ws (s.regs.get r).mag,
      Nat.mod_eq_of_lt (setMagWords_lt ws (fun i => List.mem_range.mp) hlt)]

/-! ### The answer to a host access, case by case (R42 to R45) -/

/-- R42: an offset below 0x2000 is inside the aperture. -/
theorem apertureOffset_base_add {p : Params} {off : Nat} (h : off < 0x2000) : apertureOffset p (p.base + off) = some off := by
  rw [apertureOffset, if_pos ⟨Nat.le_add_right _ _, Nat.add_lt_add_left h _⟩, Nat.add_sub_cancel_left]

theorem apertureOffset_inside {p : Params} {addr : Nat} (hlo : p.base ≤ addr) (hhi : addr < p.base + 0x2000) :
    apertureOffset p addr = some (addr - p.base) :=
  if_pos ⟨hlo, hhi⟩

theorem apertureOffset_outside {p : Params} {addr : Nat} (h : addr < p.base ∨ p.base + 0x2000 ≤ addr) :
    apertureOffset p addr = none :=
  if_neg (by omega)

/-- R45: the four ranges of R16's map that hold no register. -/
theorem locate_unmapped {p : Params} {off : Nat}
    (h : 0x018 ≤ off ∧ off ≤ 0x01F ∨ 0x040 ≤ off ∧ off ≤ 0x3FF
      ∨ 0x400 ≤ off ∧ off ≤ 0x13FF ∧ p.words ≤ off % 0x200 / 4 ∨ 0x1400 ≤ off ∧ off ≤ 0x1FFF) : locate p off = none := by
  unfold locate
  iterate 7 rw [if_neg (by omega)]
  split_ifs with hdata hword
  · omega
  · rfl
  · rfl

section Answers

variable {a : Access} {s : State}

/-- R42: an access outside the aperture never reaches the block. -/
theorem busAccess_outside (h : apertureOffset s.params a.addr = none) : busAccess a s = .next s := by
  simp only [busAccess, h]

/-- R44. -/
theorem busAccess_narrow_or_misaligned {off : Nat} (hoff : apertureOffset s.params a.addr = some off)
    (h : a.width ≠ .w32 ∨ off % 4 ≠ 0) : busAccess a s = .fault .busErrorWidthOrAlignment := by
  simp only [busAccess, hoff, if_pos h]

/-- R43, R45: an aligned 32-bit access is decided by what is mapped at its offset. -/
theorem busAccess_aligned {off : Nat} (hoff : apertureOffset s.params a.addr = some off) (hwidth : a.width = .w32)
    (halign : off % 4 = 0) :
    busAccess a s = (locate s.params off).elim (.fault .busErrorUnmapped) fun l => .next (s.accessAt a l) := by
  have hok : ¬(a.width ≠ .w32 ∨ off % 4 ≠ 0) := not_or.mpr ⟨not_not_intro hwidth, not_not_intro halign⟩
  simp only [busAccess, hoff, if_neg hok]
  cases locate s.params off <;> rfl

/-- R43: an aligned 32-bit access at the address of a register that exists acts on that register. -/
theorem busAccess_at_register {l : Loc} (hp : s.params.wf = true) (hl : l.mapped s.params = true)
    (haddr : a.addr = s.params.base + l.offset) (hwidth : a.width = .w32) : busAccess a s = .next (s.accessAt a l) := by
  have hoff : apertureOffset s.params a.addr = some l.offset := haddr ▸ apertureOffset_base_add (Loc.offset_lt hp hl)
  rw [busAccess_aligned hoff hwidth l.offset_aligned, locate_offset hp hl, Option.elim_some]

/-- No host access is refused. -/
theorem busAccess_ne_refused (r : Refusal) : busAccess a s ≠ .refused r := by
  unfold busAccess
  split
  · nofun
  · split
    · nofun
    · split <;> nofun

/-! ### The step of a host whose next operation is an access (R9, R51) -/

theorem hostTurn_of_access {rest : List HostOp} (h : s.host = .access a :: rest) :
    hostTurn s = busAccess a { s with host := rest } := by
  simp only [hostTurn, h]

theorem step_of_host_access {rest : List HostOp} (hturn : s.takeTurn.1 = .host) (h : s.host = .access a :: rest) :
    step s = busAccess a { s.takeTurn.2 with host := rest } := by
  rw [step_of_host hturn, hostTurn_of_access (s.takeTurn_host.trans h)]

end Answers

/-- Settles O55: the address is inside the aperture, where the width and alignment check comes first. -/
theorem narrowOrMisalignedAccessFaults : Obligations.NarrowOrMisalignedAccessFaults := by
  intro s a rest hturn hhost hlo hhi hbad
  rw [step_of_host_access hturn hhost]
  refine busAccess_narrow_or_misaligned (apertureOffset_inside ?_ ?_) ?_ <;> simpa

/-- Settles O56: each of the four ranges lies inside the aperture and is decoded to no register. -/
theorem unmappedOffsetFaults : Obligations.UnmappedOffsetFaults := by
  intro s a rest off hturn hhost hwidth haddr halign hrange
  have hoff : apertureOffset s.params a.addr = some off := haddr ▸ apertureOffset_base_add (by omega)
  have hnone : locate s.params off = none := locate_unmapped hrange
  rw [step_of_host_access hturn hhost, busAccess_aligned (by simpa using hoff) hwidth halign]
  simp [hnone]

/-- Settles O57: the read and the write are accesses at the address of a register that exists; the third access is outside the aperture. -/
theorem legalAccessReachesItsRegister : Obligations.LegalAccessReachesItsRegister := by
  intro s rest l v hp hturn hl
  have hregister : ∀ a : Access, s.host = .access a :: rest → a.addr = s.params.base + l.offset → a.width = .w32 →
      step s = .next (State.accessAt a l { s.takeTurn.2 with host := rest }) := fun a hhost haddr hwidth => by
    rw [step_of_host_access hturn hhost]
    exact busAccess_at_register (by simpa using hp) (by simpa using hl) (by simpa using haddr) hwidth
  refine ⟨fun hhost => hregister _ hhost rfl rfl, fun hhost => hregister _ hhost rfl rfl, fun a hhost hout => ?_⟩
  rw [step_of_host_access hturn hhost]
  exact busAccess_outside (apertureOffset_outside (by simpa using hout))

/-! ### Reads have no side effects (R49) -/

/-- No register of the aperture shows what the host has read or how many free values have been drawn. -/
theorem State.locWord_busRead (s : State) (l m : Loc) : (s.busRead l).locWord m = s.locWord m := by
  cases m <;> rfl

/-- Settles O58: a read writes only `reads` and `draws`, and neither shows in a register that is read without a draw. -/
theorem readsHaveNoSideEffects : Obligations.ReadsHaveNoSideEffects := by
  refine fun s l m => ⟨rfl, fun h => ?_⟩
  have h' : (s.busRead l).pending = none ∨ m.isWindow = false := h
  rw [State.readValue_of_no_draw h', State.readValue_of_no_draw h, State.locWord_busRead]

/-! ### What can fault (R43 to R45, R89) -/

/-- The host's turn is answered, or faults on the illegal access that heads its list: the STATUS read of WAIT is legal. -/
theorem hostTurn_next_or_illegal (s : State) :
    (∃ t, hostTurn s = .next t)
      ∨ ∃ a rest f, s.host = .access a :: rest ∧ ¬a.Legal s.params ∧ hostTurn s = .fault f := by
  cases hhost : s.host with
  | nil => exact .inl ⟨s, by simp only [hostTurn, hhost]⟩
  | cons op rest =>
    cases op with
    | wait =>
      simp only [hostTurn, hhost]
      exact .inl (busAccess_next_of_legal (lw_status_legal s.params))
    | access a =>
      rw [hostTurn_of_access hhost]
      cases hbus : busAccess a { s with host := rest } with
      | next t => exact .inl ⟨t, rfl⟩
      | refused r => exact absurd hbus (busAccess_ne_refused r)
      | fault f =>
        refine .inr ⟨a, rest, f, rfl, fun hlegal => ?_, rfl⟩
        obtain ⟨t, ht⟩ := busAccess_next_of_legal (s := { s with host := rest }) hlegal
        cases hbus.symm.trans ht

/-- A step is answered, or faults on the host's illegal access: a completion and the reset event are always answered. -/
theorem step_next_or_illegal (s : State) :
    (∃ t, step s = .next t)
      ∨ ∃ a rest f, s.takeTurn.1 = .host ∧ s.host = .access a :: rest ∧ ¬a.Legal s.params ∧ step s = .fault f := by
  cases hturn : s.takeTurn.1 with
  | engine =>
    obtain ⟨t, ht, -⟩ := engineTurn_not_pending s.takeTurn.2
    exact .inl ⟨t, (step_of_engine hturn).trans ht⟩
  | reset => exact .inl ⟨_, step_of_reset hturn⟩
  | host =>
    rw [step_of_host hturn]
    refine (hostTurn_next_or_illegal s.takeTurn.2).imp_right fun ⟨a, rest, f, hhost, hillegal, hfault⟩ => ?_
    rw [State.takeTurn_host] at hhost
    rw [State.takeTurn_params] at hillegal
    exact ⟨a, rest, f, rfl, hhost, hillegal, hfault⟩

/-- Settles O59: a step that is not answered is a host's illegal access, and that is a fault. -/
theorem onlyIllegalAccessesFault : Obligations.OnlyIllegalAccessesFault := by
  intro s
  obtain ⟨t, ht⟩ | ⟨a, rest, f, hturn, hhost, hillegal, hfault⟩ := step_next_or_illegal s
  · simp [ht]
  · exact ⟨fun _ _ => ⟨hturn, a, rest, hhost, hillegal⟩, by simp [hfault]⟩

end Sys2Proof.Machine

namespace Sys2Proof

/-! ### The fields of a masked word (R57, R61) -/

/-- The bitwise AND of two words, field by field of format C. -/
def FormatC.and (c m : FormatC) : FormatC where
  op := c.op &&& m.op
  rd := c.rd &&& m.rd
  z0 := c.z0 &&& m.z0
  ra := c.ra &&& m.ra
  z1 := c.z1 &&& m.z1
  rb := c.rb &&& m.rb
  z2 := c.z2 &&& m.z2
  rc := c.rc &&& m.rc
  z3 := c.z3 &&& m.z3
  f := c.f &&& m.f
  z4 := c.z4 &&& m.z4

theorem FormatC.ofWord_and (w m : Word) : FormatC.ofWord (w &&& m) = (FormatC.ofWord w).and (FormatC.ofWord m) := by
  simp only [FormatC.ofWord, FormatC.and, BitVec.extractLsb'_and]

/-- The fields of a word determine it (R57). -/
theorem FormatC.ofWord_injective : Function.Injective FormatC.ofWord :=
  Function.LeftInverse.injective FormatC.toWord_ofWord

/-- The OP of a row: the low byte of its `match` column (R57, R61). -/
def OpRow.op (r : OpRow) : BitVec 8 := (FormatC.ofWord r.fixed).op

theorem OpRow.hits_iff_fields (r : OpRow) (w : Word) :
    r.hits w = true ↔ (FormatC.ofWord w).and (FormatC.ofWord r.mask) = FormatC.ofWord r.fixed := by
  rw [OpRow.hits, beq_iff_eq, ← FormatC.ofWord_injective.eq_iff, FormatC.ofWord_and]

/-- R59: what the mask of KEYSETUP and KEYRD leaves of F. -/
theorem and_fourteen_eq_zero_iff (f : BitVec 4) : f &&& 14#4 = 0#4 ↔ f.toNat ≤ 1 := by
  revert f; decide

/-- A row matches exactly the well-formed words of its OP: its mask keeps OP, the bits R60 wants 0 and the fields the row does not use. -/
theorem OpRow.hits_iff {r : OpRow} (hr : r ∈ opRows) (w : Word) :
    r.hits w = true ↔ (FormatC.ofWord w).op = r.op ∧ (FormatC.ofWord w).wellFormed = true := by
  rw [OpRow.hits_iff_fields, OpRow.op]
  generalize FormatC.ofWord w = c
  obtain ⟨op, rd, z0, ra, z1, rb, z2, rc, z3, f, z4⟩ := c
  have h1 (x : BitVec 1) : x &&& 1#1 = x := BitVec.and_allOnes
  have h3 (x : BitVec 3) : x &&& 7#3 = x := BitVec.and_allOnes
  have h4 (x : BitVec 4) : x &&& 15#4 = x := BitVec.and_allOnes
  have h8 (x : BitVec 8) : x &&& 255#8 = x := BitVec.and_allOnes
  fin_cases hr <;>
    · simp only [FormatC.and, FormatC.ofWord, FormatC.mk.injEq, BitVec.reduceExtractLsb', h1, h3, h4, h8, BitVec.and_zero,
        and_fourteen_eq_zero_iff]
      refine and_congr_right fun hop => ?_
      subst hop
      simp [FormatC.wellFormed, FormatC.opAssigned, FormatC.zerosClear, FormatC.unusedClear, and_assoc, and_left_comm,
        and_comm]

/-! ### The rows of the opcode map (R61) -/

/-- No two rows have the same OP. -/
theorem opRows_op_inj {r q : OpRow} (hr : r ∈ opRows) (hq : q ∈ opRows) (h : r.op = q.op) : r = q :=
  List.inj_on_of_nodup_map (f := OpRow.op) (by decide) hr hq h

/-- R61: at most one row matches a word. -/
theorem OpRow.hits_unique {w : Word} {r q : OpRow} (hr : r ∈ opRows) (hq : q ∈ opRows) (hrw : r.hits w = true)
    (hqw : q.hits w = true) : r = q := by
  obtain ⟨hr_op, -⟩ := (OpRow.hits_iff hr w).mp hrw
  obtain ⟨hq_op, -⟩ := (OpRow.hits_iff hq w).mp hqw
  exact opRows_op_inj hr hq (hr_op.symm.trans hq_op)

/-- R63: a row that matches decides, wherever it stands, since no other row does. -/
theorem decode_of_hits {w : Word} {r : OpRow} (hr : r ∈ opRows) (h : r.hits w = true) : decode w = .cmd (r.build w) := by
  unfold decode
  split
  · next q hq =>
    have hqw : q.hits w = true := by simpa using List.find?_some hq
    rw [OpRow.hits_unique hr (List.mem_of_find?_eq_some hq) h hqw]
  · next hnone => exact absurd h (List.find?_eq_none.mp hnone r hr)

/-- R63: no row, no command. -/
theorem decode_of_no_hits {w : Word} (h : ∀ r ∈ opRows, ¬r.hits w = true) :
    decode w = .illegal (if (FormatC.ofWord w).opAssigned then .mustBeZero else .reservedOpcode) := by
  simp only [decode, List.find?_eq_none.mpr h]

/-- A command comes from the row that matches. -/
theorem exists_hits_of_decode {w : Word} {i : Instr} (h : decode w = .cmd i) : ∃ r ∈ opRows, r.hits w = true ∧ r.build w = i := by
  by_cases hrow : ∃ r ∈ opRows, r.hits w = true
  · obtain ⟨r, hr, hrw⟩ := hrow
    exact ⟨r, hr, hrw, Decoded.cmd.inj ((decode_of_hits hr hrw).symm.trans h)⟩
  · push Not at hrow
    cases (decode_of_no_hits hrow).symm.trans h

/-! ### Well-formed words (R60, R62) -/

theorem FormatC.opAssigned_of_wellFormed {c : FormatC} (h : c.wellFormed = true) : c.opAssigned = true := by
  simp only [FormatC.wellFormed, Bool.and_eq_true] at h
  obtain ⟨⟨hop, -⟩, -⟩ := h
  exact hop

/-- R62: the rows of R61 cover the assigned OP values. -/
theorem exists_row_of_opAssigned {c : FormatC} (h : c.opAssigned = true) : ∃ r ∈ opRows, r.op = c.op := by
  have hcover : ∀ op : BitVec 8, op.toNat ≤ 0x06 ∨ 0x10 ≤ op.toNat ∧ op.toNat ≤ 0x13 → ∃ r ∈ opRows, r.op = op := by decide
  exact hcover c.op (by simpa [FormatC.opAssigned] using h)

/-- Some row matches exactly when the word is well formed. -/
theorem exists_hits_iff (w : Word) : (∃ r ∈ opRows, r.hits w = true) ↔ (FormatC.ofWord w).wellFormed = true := by
  constructor
  · rintro ⟨r, hr, h⟩
    exact ((OpRow.hits_iff hr w).mp h).2
  · intro h
    obtain ⟨r, hr, hop⟩ := exists_row_of_opAssigned (FormatC.opAssigned_of_wellFormed h)
    exact ⟨r, hr, (OpRow.hits_iff hr w).mpr ⟨hop.symm, h⟩⟩

/-- R60, R62: a malformed word is illegal, and its OP decides the reason the model gives. -/
theorem decode_of_not_wellFormed {w : Word} (h : (FormatC.ofWord w).wellFormed = false) :
    decode w = .illegal (if (FormatC.ofWord w).opAssigned then .mustBeZero else .reservedOpcode) :=
  decode_of_no_hits fun r hr hrw => by simp [(exists_hits_iff w).mp ⟨r, hr, hrw⟩] at h

/-- Settles O4: two rows that match one word are the same row. -/
theorem opcodeRowsAreDisjoint : Obligations.OpcodeRowsAreDisjoint := fun _ _ _ hr hq hrw hqw =>
  congrArg OpRow.mnemonic (OpRow.hits_unique hr hq hrw hqw)

/-- Settles O5: a well-formed word is matched by a row and is a command; any other word is illegal, for the reason its OP gives. -/
theorem illegalWordsAreTheMalformedOnes : Obligations.IllegalWordsAreTheMalformedOnes := by
  intro w
  cases hwf : (FormatC.ofWord w).wellFormed with
  | true =>
    obtain ⟨r, hr, hrw⟩ := (exists_hits_iff w).mpr hwf
    simp [decode_of_hits hr hrw, FormatC.opAssigned_of_wellFormed hwf]
  | false => cases hop : (FormatC.ofWord w).opAssigned <;> simp [decode_of_not_wellFormed hwf, hop]

/-! ### Encoding and decoding are inverse (R57 to R64) -/

/-! #### The operands of a word are its fields (R58, R59) -/

theorem fieldRd_eq (w : Word) : fieldRd w = Reg.ofBits (FormatC.ofWord w).rd := rfl

theorem fieldRa_eq (w : Word) : fieldRa w = Reg.ofBits (FormatC.ofWord w).ra := rfl

theorem fieldRb_eq (w : Word) : fieldRb w = Reg.ofBits (FormatC.ofWord w).rb := rfl

theorem fieldRc_eq (w : Word) : fieldRc w = Reg.ofBits (FormatC.ofWord w).rc := rfl

theorem fieldV_eq (w : Word) : fieldV w = (FormatC.ofWord w).f[0] := by
  simp [fieldV, FormatC.ofWord]

theorem fieldSel_eq (w : Word) : fieldSel w = if fieldV w then .e else .n := rfl

theorem KeySel.toBool_ite (b : Bool) : (if b then KeySel.e else KeySel.n).toBool = b := by
  cases b <;> rfl

theorem KeySel.ite_toBool (sel : KeySel) : (if sel.toBool then KeySel.e else KeySel.n) = sel := by
  cases sel <;> rfl

@[simp] theorem flagF_getElem_zero (b : Bool) : (flagF b)[0] = b := by
  cases b <;> rfl

/-- R59: V is the one bit of F that KEYSETUP leaves free. -/
theorem flagF_fieldV (w : Word) : flagF (fieldV w) = w.extractLsb' 24 4 &&& 1#4 := by
  have hbit : ∀ f : BitVec 4, flagF f[0] = f &&& 1#4 := by decide
  rw [fieldV_eq]
  exact hbit _

/-- The operands a row reads from a word are all the bits its mask leaves free: the instruction's word has the row's fixed bits, and the given word's
bits where the mask is clear. -/
theorem encode_build {r : OpRow} (hr : r ∈ opRows) (w : Word) : encode (r.build w) = r.fixed ||| (w &&& ~~~r.mask) := by
  have h3 (x : BitVec 3) : x &&& 7#3 = x := BitVec.and_allOnes
  apply FormatC.ofWord_injective
  rw [FormatC.ofWord_encode]
  fin_cases hr <;>
    simp [Instr.format, FormatC.command, fieldRd_eq, fieldRa_eq, fieldRb_eq, fieldRc_eq, fieldSel_eq,
      KeySel.toBool_ite, flagF_fieldV, FormatC.ofWord, BitVec.extractLsb'_or, BitVec.extractLsb'_and, h3]

/-- No bit of a matching word is lost: what the mask keeps is the row's fixed bits (R61). -/
theorem encode_build_of_hits {r : OpRow} (hr : r ∈ opRows) {w : Word} (h : r.hits w = true) : encode (r.build w) = w := by
  have hfixed : w &&& r.mask = r.fixed := beq_iff_eq.mp h
  rw [encode_build hr, ← hfixed, ← BitVec.and_or_distrib_left, BitVec.or_not_self, BitVec.and_allOnes]

theorem encode_decode {w : Word} {i : Instr} (h : decode w = .cmd i) : encode i = w := by
  obtain ⟨r, hr, hrw, rfl⟩ := exists_hits_of_decode h
  exact encode_build_of_hits hr hrw

/-- Settles O3: the command comes from the row that matches, which reads every bit of the word. -/
theorem encodeOfDecodeIsTheWord : Obligations.EncodeOfDecodeIsTheWord := fun _ _ => encode_decode

/-- The row of the opcode map an instruction is encoded by (R61). -/
def Instr.row : Instr → OpRow
  | .nop => opRows[0]
  | .modred _ _ _ => opRows[1]
  | .modmul _ _ _ _ => opRows[2]
  | .modpow _ _ _ _ => opRows[3]
  | .gcd _ _ _ => opRows[4]
  | .modinv _ _ _ => opRows[5]
  | .isprime _ => opRows[6]
  | .keysetup _ _ _ _ => opRows[7]
  | .sign _ _ => opRows[8]
  | .verify _ _ => opRows[9]
  | .keyrd _ _ => opRows[10]

theorem Instr.row_mem (i : Instr) : i.row ∈ opRows := by
  cases i <;> exact List.getElem_mem _

/-- The architect's `WordForm` lemmas, one for each constructor, together. -/
theorem Instr.wordForm (i : Instr) : Laws.WordForm.Statement i := by
  cases i with
  | nop => exact Laws.WordForm.nop
  | modred rd ra rc => exact Laws.WordForm.modred rd ra rc
  | modmul rd ra rb rc => exact Laws.WordForm.modmul rd ra rb rc
  | modpow rd ra rb rc => exact Laws.WordForm.modpow rd ra rb rc
  | gcd rd ra rb => exact Laws.WordForm.gcd rd ra rb
  | modinv rd ra rc => exact Laws.WordForm.modinv rd ra rc
  | isprime ra => exact Laws.WordForm.isprime ra
  | keysetup ra rb rc v => exact Laws.WordForm.keysetup ra rb rc v
  | sign rd ra => exact Laws.WordForm.sign rd ra
  | verify ra rb => exact Laws.WordForm.verify ra rb
  | keyrd rd sel => exact Laws.WordForm.keyrd rd sel

/-- R61: an instruction's word keeps its row's fixed bits. -/
theorem Instr.row_hits_encode (i : Instr) : i.row.hits (encode i) = true := by
  have hrow : (i.row.fixed, i.row.mask) = Laws.rowOf i := by cases i <;> rfl
  obtain ⟨hbits, -⟩ := i.wordForm
  rw [← hrow] at hbits
  exact beq_iff_eq.mpr hbits

/-- R58, R64: the operands read from an instruction's word are its operands. -/
theorem Instr.row_build_encode (i : Instr) : i.row.build (encode i) = i := by
  cases i <;>
    simp [Instr.row, opRows, numericRows, rsaRows, fieldRd_eq, fieldRa_eq, fieldRb_eq, fieldRc_eq, fieldSel_eq, fieldV_eq,
      Instr.format, FormatC.command, KeySel.ite_toBool]

theorem decode_encode (i : Instr) : decode (encode i) = .cmd i := by
  rw [decode_of_hits i.row_mem i.row_hits_encode, i.row_build_encode]

/-- Settles O2: the instruction's row matches its word and reads its operands back. -/
theorem decodeOfEncodeIsTheInstruction : Obligations.DecodeOfEncodeIsTheInstruction := decode_encode

/-- Settles O1: each word is the encoding of the command written beside it, so O2's `decode_encode` applies. -/
theorem commandWordsDecodeAsTheSpecWritesThem : Obligations.CommandWordsDecodeAsTheSpecWritesThem :=
  ⟨decode_encode .nop, decode_encode (.modred .r3 .r0 .r2), decode_encode (.modmul .r4 .r0 .r2 .r1),
    decode_encode (.modpow .r3 .r0 .r1 .r2), decode_encode (.gcd .r3 .r0 .r1), decode_encode (.modinv .r2 .r0 .r1),
    decode_encode (.isprime .r5), decode_encode (.keysetup .r0 .r1 .r2 true), decode_encode (.sign .r5 .r4),
    decode_encode (.verify .r5 .r4), decode_encode (.keyrd .r3 .e)⟩

end Sys2Proof

namespace Sys2Proof.Machine

/-! ### A malformed command word (R60, R62) -/

/-- R94, stage 1: a pending word that is no command completes with ILLEGAL_COMMAND and writes nothing else. -/
theorem engineTurn_of_illegal {s : State} {w : Word} {why : Illegal} (hp : s.pending = some w) (hd : decode w = .illegal why) :
    engineTurn s = .next (s.failed .illegalCommand .noSlot) := by
  simp only [engineTurn, hp, hd]
  rfl

/-- Settles O6: an idle engine accepts any word (R92), and a malformed one is decoded to no command. -/
theorem malformedWordCompletesWithIllegalCommand : Obligations.MalformedWordCompletesWithIllegalCommand := by
  intro s w hwf
  refine ⟨fun hidle => ?_, fun hturn hp => ?_⟩
  · rw [State.busWrite, State.issue_of_idle w hidle, State.accept_pending]
  · have hp' : s.takeTurn.2.pending = some w := s.takeTurn_pending.trans hp
    rw [step_of_engine hturn, engineTurn_of_illegal hp' (decode_of_not_wellFormed hwf)]

/-! ### WAIT (R66) -/

/-- BUSY is bit 0 of STATUS (R19). -/
theorem State.statusWord_bit_zero (s : State) : s.statusWord.getLsbD 0 = s.busy := by
  rw [State.statusWord, BitVec.getLsbD_append]
  simp

/-- STATUS is outside the operand window, so reading it draws no free value (R29). -/
theorem State.busRead_status (s : State) : s.busRead .status = { s with reads := s.statusWord :: s.reads } := by
  have hdraws : s.drawsOn .status = false := Bool.and_false s.busy
  simp only [State.busRead, State.readValue, hdraws]
  rfl

/-- The STATUS read of WAIT is answered for all parameters (R16, R66). -/
theorem busAccess_lw_status (s : State) :
    busAccess (lw s.params .status) s = .next { s with reads := s.statusWord :: s.reads } := by
  have hoff : apertureOffset s.params (lw s.params .status).addr = some 0x00C := apertureOffset_base_add (by decide)
  rw [busAccess_aligned hoff rfl rfl, ← State.busRead_status]
  rfl

/-- A host turn on WAIT reads STATUS, and stays on WAIT while BUSY = 1. -/
theorem hostTurn_of_wait {s : State} {rest : List HostOp} (h : s.host = .wait :: rest) :
    hostTurn s = .next { s with host := if s.busy then s.host else rest, reads := s.statusWord :: s.reads } := by
  rw [← State.statusWord_bit_zero]
  simp only [hostTurn, h]
  exact busAccess_lw_status _

theorem step_of_wait {s : State} {rest : List HostOp} (hturn : s.takeTurn.1 = .host) (h : s.host = .wait :: rest) :
    step s = .next { s with
      host := if s.busy then s.host else rest
      turns := s.turns.tail
      reads := s.statusWord :: s.reads } := by
  rw [step_of_host hturn, State.takeTurn_snd]
  exact hostTurn_of_wait h

/-- The engine's turn is no access of the host and uses up no turn. -/
theorem engineTurn_host_frame {s t : State} (h : engineTurn s = .next t) :
    t.host = s.host ∧ t.turns = s.turns ∧ t.reads = s.reads := by
  obtain ⟨-, hturn⟩ | ⟨w, o, -, hturn, -⟩ := engineTurn_cases s <;> cases h.symm.trans hturn
  · exact ⟨rfl, rfl, rfl⟩
  · obtain ⟨-, -, -, -, -, -, hhost, hturns, hreads, -⟩ := s.complete_frame o
    exact ⟨hhost, hturns, hreads⟩

/-- Settles O41: a busy STATUS read stays on WAIT; with no turns left the engine goes first, and the STATUS read after it finds BUSY = 0. -/
theorem waitEndsAfterCompletion : Obligations.WaitEndsAfterCompletion := by
  intro s rest hhost hp
  have hbusy : s.busy = true := Option.isSome_iff_ne_none.mpr hp
  refine ⟨fun hturn => ⟨_, step_of_wait hturn hhost, if_pos hbusy, rfl⟩, fun hturns => ?_⟩
  obtain ⟨u, hengine, hidle⟩ := engineTurn_not_pending s.takeTurn.2
  obtain ⟨huhost, huturns, hureads⟩ := engineTurn_host_frame hengine
  rw [State.takeTurn_host, hhost] at huhost
  rw [State.takeTurn_turns, hturns] at huturns
  have hu : u.busy = false := by rw [State.busy, hidle, Option.isSome_none]
  have hcompletes : step s = .next u := (step_of_engine (s.takeTurn_nil_busy hturns hbusy)).trans hengine
  have hwaits := step_of_wait (u.takeTurn_nil_idle huturns hu) huhost
  refine ⟨_, u.statusWord, (core_run_succ hcompletes 1).trans (core_run_succ hwaits 0), ?_, hidle, ?_, ?_⟩
  · exact if_neg (by simp [hu])
  · rw [hureads, State.takeTurn_reads]
  · rw [State.statusWord_bit_zero, hu]

/-! ### LI (R66) -/

/-- The states LI's statement is about: allowed parameters, nothing pending and no turns placed, so every step is the host's (log entry 2). -/
structure State.HostRuns (s : State) : Prop where
  params_wf : s.params.wf = true
  idle : s.pending = none
  no_turns : s.turns = []

theorem State.HostRuns.takeTurn_eq {s : State} (h : s.HostRuns) : s.takeTurn = (.host, s) := by
  simp [State.takeTurn, h.no_turns, State.busy, h.idle]

theorem Bank.set_set {α : Type} (b : Bank α) (r : Reg) (x y : α) : (b.set r x).set r y = b.set r y := by
  cases r <;> rfl

theorem Bank.set_get {α : Type} (b : Bank α) (r : Reg) : b.set r (b.get r) = b := by
  cases r <;> rfl

/-- While only the host moves, its `SW` in the operand window writes its register in one step (R26, R28, R65). -/
theorem step_of_window_sw {s : State} {l : Loc} {w : Word} {r : Reg} {f : OpReg → OpReg} {rest : List HostOp}
    (hwrite : ∀ u : State, u.busWrite l w = u.writeWindow r f) (hs : s.HostRuns) (hl : l.mapped s.params = true)
    (hhost : s.host = .access (sw s.params l w) :: rest) :
    step s = .next { s with host := rest, regs := s.regs.set r (f (s.regs.get r)) } := by
  have hturn : s.takeTurn.1 = .host := congrArg Prod.fst hs.takeTurn_eq
  have hbus : busAccess (sw s.params l w) { s with host := rest } = .next (State.busWrite l w { s with host := rest }) :=
    busAccess_at_register hs.params_wf hl rfl rfl
  rw [step_of_host_access hturn hhost, hs.takeTurn_eq, hbus, hwrite]
  exact congrArg Host.Outcome.next (State.writeWindow_of_idle r f hs.idle)

/-- The RDATA writes of LI: the words `ws i`, at the indices of a list, in its order. -/
theorem run_rdata_writes (r : Reg) (ws : Nat → Word) (rest : List HostOp) (is : List Nat) {s : State} (hs : s.HostRuns)
    (his : ∀ i ∈ is, i < s.params.words)
    (hhost : s.host = (is.map fun i => .access (sw s.params (.rdata r i) (ws i))) ++ rest) :
    core.run is.length s
      = .next { s with
          host := rest
          regs := s.regs.set r { s.regs.get r with mag := setMagWords ws (s.regs.get r).mag is } } := by
  induction is generalizing s with
  | nil =>
    have hrest : rest = s.host := hhost.symm
    subst hrest
    exact congrArg (fun b => Host.Outcome.next { s with regs := b }) (Bank.set_get _ _).symm
  | cons i is ih =>
    have hi : Loc.mapped s.params (.rdata r i) = true := decide_eq_true (his i List.mem_cons_self)
    have hstep := step_of_window_sw (fun _ => rfl) hs hi hhost
    rw [List.length_cons, core_run_succ hstep, ih]
    · simp [Bank.set_set, OpReg.writeData, setMagWords]
    · exact ⟨hs.params_wf, hs.idle, hs.no_turns⟩
    · exact fun j hj => his j (List.mem_cons_of_mem _ hj)
    · rfl

/-- R26, R66: LI's RMETA word clears MAG and sets VALID and the sign. -/
theorem writeMeta_liMeta (v : Int) (o : OpReg) : o.writeMeta (liMeta v) = { sign := decide (v < 0), valid := true, mag := 0 } := by
  by_cases h : v < 0 <;> simp [OpReg.writeMeta, liMeta, h]

/-- R66: |v| has no bits above its W(v) words. -/
theorem natAbs_lt_wordsNeeded (v : Int) : v.natAbs < 2 ^ (32 * wordsNeeded v) := by
  unfold wordsNeeded
  split
  · next h => simp [h]
  · next h => exact (Nat.log2_lt h).mp (by omega)

/-- A value of K bits needs no more than the words of a register. -/
theorem wordsNeeded_le {p : Params} (hp : p.wf = true) {v : Int} (hv : v.natAbs < 2 ^ p.k) : wordsNeeded v ≤ p.words := by
  have hk := (Params.words_of_wf hp).2
  unfold wordsNeeded
  split
  · exact Nat.zero_le _
  · next h =>
    have hlog := (Nat.log2_lt h).mpr hv
    omega

/-- Writing the words of a magnitude in order, from 0, gives the magnitude. -/
theorem setMagWords_range_of_lt {mag n : Nat} (h : mag < 2 ^ (32 * n)) : setMagWords (magWord mag) 0 (List.range n) = mag := by
  have hlt : setMagWords (magWord mag) 0 (List.range n) < 2 ^ (32 * n) :=
    setMagWords_lt _ (fun i => List.mem_range.mp) (Nat.two_pow_pos _)
  rw [← Nat.mod_eq_of_lt hlt, setMagWords_range_mod, ← mod_eq_sum_words, Nat.mod_eq_of_lt h]

/-- Settles O43: the RMETA write clears MAG and sets VALID and the sign, and the RDATA writes, none of them outside the register, put |v| together
from its words. -/
theorem liLoadsTheValue : Obligations.LiLoadsTheValue := by
  intro s r v rest hp hidle hturns hv hhost
  have hs : s.HostRuns := ⟨hp, hidle, hturns⟩
  have hmeta := step_of_window_sw (fun _ => rfl) hs rfl hhost
  rw [writeMeta_liMeta] at hmeta
  have hinside : ∀ i ∈ List.range (wordsNeeded v), i < s.params.words := fun i hi =>
    (List.mem_range.mp hi).trans_le (wordsNeeded_le hp hv)
  have hlen : (HostLine.expand s.params (.li r v)).length = (List.range (wordsNeeded v)).length + 1 := by
    simp [HostLine.expand]
  rw [hlen, core_run_succ hmeta, run_rdata_writes r (magWord v.natAbs) rest]
  · simp [Bank.set_set, setMagWords_range_of_lt (natAbs_lt_wordsNeeded v)]
  · exact ⟨hs.params_wf, hs.idle, hs.no_turns⟩
  · exact hinside
  · rfl

end Sys2Proof.Machine

namespace Sys2Proof.Machine

/-! ### Failures of the numeric family (R69 to R71, R73, R95) -/

/-- A failed completion is `failed` (R93, R95). -/
theorem finishCommand_error (c : ErrCode) (src : Slot) (s : State) :
    finishCommand (.error c src) s = .next (s.failed c src) := by
  rw [finishCommand, State.complete, State.raise_failed]

/-! #### Stage 4 with operands the rules exclude -/

theorem modredCommand_of_nonpos (rd : Reg) (a : Int) {m : Int} (hm : m ≤ 0) : modredCommand rd a m = .error .badOperand .rc :=
  if_pos hm

theorem modmulCommand_of_nonpos (rd : Reg) (a b : Int) {m : Int} (hm : m ≤ 0) : modmulCommand rd a b m = .error .badOperand .rc :=
  if_pos hm

theorem modinvCommand_of_nonpos (rd : Reg) (v : Int) {m : Int} (hm : m ≤ 0) : modinvCommand rd v m = .error .badOperand .rc :=
  if_pos hm

theorem modinvCommand_of_not_coprime (rd : Reg) {v m : Int} (hm : 0 < m) (hg : gcdAbs v m ≠ 1) :
    modinvCommand rd v m = .error .noInverse .ra :=
  (if_neg hm.not_ge).trans (if_pos hg)

/-- R71: the exponent is checked first, so the modulus does not matter here. -/
theorem modpowCommand_of_neg (rd : Reg) (b : Int) {x : Int} (m : Int) (hx : x < 0) :
    modpowCommand rd b x m = .error .badOperand .rb :=
  if_pos hx

theorem modpowCommand_of_nonneg_of_nonpos (rd : Reg) (b : Int) {x m : Int} (hx : 0 ≤ x) (hm : m ≤ 0) :
    modpowCommand rd b x m = .error .badOperand .rc :=
  (if_neg hx.not_gt).trans (if_pos hm)

/-! #### The statements about NOP and the failures -/

/-- Settles O16: a common divisor above 1 excludes gcd(v, m) = 1, the one check left after m > 0. -/
theorem modinvWithoutInverseFails : Obligations.ModinvWithoutInverseFails := by
  intro s rd ra rc v m c hv hm hpos hc hcv hcm
  have hg : gcdAbs v m ≠ 1 := gcdAbs_ne_one hc hcv hcm
  rw [exec_modinv_of_operands rd hv hm, modinvCommand_of_not_coprime rd hpos hg, finishCommand_error]

/-- Settles O8: NOP has no operand and no check, so it completes with no destination and RESULT = 0. -/
theorem nopCompletes : Obligations.NopCompletes := finishCommand_flag false

/-- Settles O15: stage 3 finds the operands, and in each clause one check of stage 4 fails. -/
theorem badNumericOperandsFail : Obligations.BadNumericOperandsFail := by
  intro s rd ra rb rc a b m ha hb hm
  refine ⟨fun hmod => ?_, fun hmod => ?_, fun hmod => ?_, fun hexp => ?_, fun hexp hmod => ?_⟩
  · rw [exec_modred_of_operands rd ha hm, modredCommand_of_nonpos rd a hmod, finishCommand_error]
  · rw [exec_modmul_of_operands rd ha hb hm, modmulCommand_of_nonpos rd a b hmod, finishCommand_error]
  · rw [exec_modinv_of_operands rd ha hm, modinvCommand_of_nonpos rd a hmod, finishCommand_error]
  · rw [exec_modpow_of_operands rd ha hb hm, modpowCommand_of_neg rd a m hexp, finishCommand_error]
  · rw [exec_modpow_of_operands rd ha hb hm, modpowCommand_of_nonneg_of_nonpos rd a hexp hmod, finishCommand_error]

end Sys2Proof.Machine

namespace Sys2Proof.Machine

/-! ### The checks of KEYSETUP (R79, R81) -/

theorem isPrime_eq_false_iff (v : Int) : isPrime v = false ↔ ¬IsPrimeValue v := by
  rw [← isPrime_isPrimeValue, Bool.not_eq_true]

/-- What CLS step 1 asks of d once p and q are prime. -/
abbrev ExponentValid (p q d : Int) : Prop := 2 ≤ d ∧ d ≤ (p - 1) * (q - 1) - 1 ∧ IsGcd d ((p - 1) * (q - 1)) 1

section Checks

variable {k : Nat} {p q d : Int}

/-! #### CLS step 1, done for V = 1 only: the slot of the first check that fails -/

theorem keyValidation_of_not_prime_left (q d : Int) (hp : ¬IsPrimeValue p) : keyValidation p q d = some .ra :=
  if_pos ((isPrime_eq_false_iff p).mpr hp)

theorem keyValidation_of_not_prime_right (d : Int) (hp : IsPrimeValue p) (hq : ¬IsPrimeValue q) : keyValidation p q d = some .rb := by
  rw [keyValidation, if_neg ((isPrime_eq_false_iff p).not_left.mpr hp), if_pos ((isPrime_eq_false_iff q).mpr hq)]

/-- With p and q prime the two checks of d decide. -/
theorem keyValidation_of_primes (d : Int) (hp : IsPrimeValue p) (hq : IsPrimeValue q) :
    keyValidation p q d
      = if ¬(2 ≤ d ∧ d ≤ totient p q - 1) then some .rc else if gcdAbs d (totient p q) ≠ 1 then some .rc else none := by
  rw [keyValidation, if_neg ((isPrime_eq_false_iff p).not_left.mpr hp), if_neg ((isPrime_eq_false_iff q).not_left.mpr hq)]

/-- Both checks of d blame the same slot. -/
theorem keyValidation_of_not_exponentValid (hp : IsPrimeValue p) (hq : IsPrimeValue q) (hd : ¬ExponentValid p q d) :
    keyValidation p q d = some .rc := by
  rw [keyValidation_of_primes d hp hq]
  by_cases hrange : 2 ≤ d ∧ d ≤ totient p q - 1
  · have hg : gcdAbs d (totient p q) ≠ 1 := fun hg => hd ⟨hrange.1, hrange.2, isGcd_one_iff.mpr hg⟩
    rw [if_neg (not_not_intro hrange), if_pos hg]
  · rw [if_pos hrange]

theorem keyValidation_of_exponentValid (hp : IsPrimeValue p) (hq : IsPrimeValue q) (hd : ExponentValid p q d) :
    keyValidation p q d = none := by
  obtain ⟨hlo, hhi, hcoprime⟩ := hd
  have hg : gcdAbs d (totient p q) = 1 := isGcd_one_iff.mp hcoprime
  rw [keyValidation_of_primes d hp hq, if_neg (not_not_intro ⟨hlo, hhi⟩), if_neg (not_not_intro hg)]

/-- R79, R81: what a key has that passes CLS step 1. -/
theorem valid_of_keyValidation_eq_none (h : keyValidation p q d = none) : IsPrimeValue p ∧ IsPrimeValue q ∧ ExponentValid p q d := by
  have hp : IsPrimeValue p := by
    by_contra hp
    simp [keyValidation_of_not_prime_left q d hp] at h
  have hq : IsPrimeValue q := by
    by_contra hq
    simp [keyValidation_of_not_prime_right d hp hq] at h
  refine ⟨hp, hq, ?_⟩
  by_contra hd
  simp [keyValidation_of_not_exponentValid hp hq hd] at h

/-- A key that passes CLS step 1 fails none of the later checks but OVERFLOW. -/
theorem KeyConstructible.of_valid (hp : IsPrimeValue p) (hq : IsPrimeValue q) (hd : ExponentValid p q d)
    (hlt : (p * q).toNat < 2 ^ k) : KeyConstructible k p q d :=
  ⟨hp.1, hq.1, by linarith [hd.1], hlt, isGcd_one_iff.mp hd.2.2⟩

/-! #### The structural checks and CLS steps 2, 3 and 5 -/

theorem keyConstruct_of_constructible (h : KeyConstructible k p q d) :
    keyConstruct k p q d = .ok none false (some (newKey p q d)) := by
  rw [keyConstruct, if_neg h.two_le_p.not_gt, if_neg h.two_le_q.not_gt, if_neg h.d_nonneg.not_gt, if_neg h.product_lt.not_ge,
    if_neg (not_not_intro h.coprime), newKey]

theorem keyConstruct_of_left_lt (k : Nat) (q d : Int) (hp : p < 2) : keyConstruct k p q d = .error .badOperand .ra :=
  if_pos hp

theorem keyConstruct_of_right_lt (k : Nat) (d : Int) (hp : 2 ≤ p) (hq : q < 2) : keyConstruct k p q d = .error .badOperand .rb :=
  (if_neg hp.not_gt).trans (if_pos hq)

theorem keyConstruct_of_exponent_neg (k : Nat) (hp : 2 ≤ p) (hq : 2 ≤ q) (hd : d < 0) :
    keyConstruct k p q d = .error .badOperand .rc :=
  (if_neg hp.not_gt).trans ((if_neg hq.not_gt).trans (if_pos hd))

theorem keyConstruct_of_overflow (hp : 2 ≤ p) (hq : 2 ≤ q) (hd : 0 ≤ d) (hn : 2 ^ k ≤ (p * q).toNat) :
    keyConstruct k p q d = .error .overflow .noSlot :=
  (if_neg hp.not_gt).trans ((if_neg hq.not_gt).trans ((if_neg hd.not_gt).trans (if_pos hn)))

theorem keyConstruct_of_not_coprime (hp : 2 ≤ p) (hq : 2 ≤ q) (hd : 0 ≤ d) (hn : (p * q).toNat < 2 ^ k)
    (hg : gcdAbs d (totient p q) ≠ 1) : keyConstruct k p q d = .error .noInverse .rc := by
  rw [keyConstruct, if_neg hp.not_gt, if_neg hq.not_gt, if_neg hd.not_gt, if_neg hn.not_ge, if_pos hg]

/-! #### Both parts -/

theorem keysetupCommand_of_invalid {slot : Slot} (k : Nat) (h : keyValidation p q d = some slot) :
    keysetupCommand k true p q d = .error .invalidKey slot := by
  rw [keysetupCommand, if_pos rfl, h]

/-- With V = 0, or once CLS step 1 has passed, the later checks decide. -/
theorem keysetupCommand_of_valid {v : Bool} (k : Nat) (h : v = true → keyValidation p q d = none) :
    keysetupCommand k v p q d = keyConstruct k p q d := by
  cases v with
  | false => rfl
  | true => rw [keysetupCommand, if_pos rfl, h rfl]

end Checks

/-! ### KEYSETUP with written operands and no key (R81, R94) -/

section Keysetup

variable {s : State} {ra rb rc : Reg} {v : Bool} {p q d : Int}

theorem exec_keysetup_of_operands (v : Bool) (hkey : s.keyv = false) (hp : s.snap.get ra = some p) (hq : s.snap.get rb = some q)
    (hd : s.snap.get rc = some d) :
    exec (.keysetup ra rb rc v) s = finishCommand (keysetupCommand s.params.k v p q d) s := by
  rw [exec, execKeysetup, needNoKey, if_neg (by simp [hkey]), needOperand_some hp, needOperand_some hq, needOperand_some hd]

theorem exec_keysetup_of_invalid {slot : Slot} (hkey : s.keyv = false) (hp : s.snap.get ra = some p) (hq : s.snap.get rb = some q)
    (hd : s.snap.get rc = some d) (h : keyValidation p q d = some slot) :
    exec (.keysetup ra rb rc true) s = .next (s.failed .invalidKey slot) := by
  rw [exec_keysetup_of_operands true hkey hp hq hd, keysetupCommand_of_invalid _ h, finishCommand_error]

theorem exec_keysetup_of_construct_error {code : ErrCode} {slot : Slot} (hkey : s.keyv = false) (hp : s.snap.get ra = some p)
    (hq : s.snap.get rb = some q) (hd : s.snap.get rc = some d) (hvalid : v = true → keyValidation p q d = none)
    (herror : keyConstruct s.params.k p q d = .error code slot) :
    exec (.keysetup ra rb rc v) s = .next (s.failed code slot) := by
  rw [exec_keysetup_of_operands v hkey hp hq hd, keysetupCommand_of_valid _ hvalid, herror, finishCommand_error]

/-- A KEYSETUP whose key passes every check that V asks for writes it, and no operand register. -/
theorem exec_keysetup_writes_key (hkey : s.keyv = false) (hp : s.snap.get ra = some p) (hq : s.snap.get rb = some q)
    (hd : s.snap.get rc = some d) (hvalid : v = true → keyValidation p q d = none) (hcon : KeyConstructible s.params.k p q d) :
    ∃ e : Nat, IsModinv d ((p - 1) * (q - 1)) e
      ∧ exec (.keysetup ra rb rc v) s
        = .next { s.succeeded s.regs false with keyN := (p * q).toNat, keyD := d.toNat, keyE := e, keyv := true } := by
  refine ⟨_, hcon.e_spec, ?_⟩
  rw [exec_keysetup_of_operands v hkey hp hq hd, keysetupCommand_of_valid _ hvalid, keyConstruct_of_constructible hcon]
  rfl

/-- A KEYSETUP that succeeds has made a key of its operands, and with V = 1 they have passed CLS step 1. -/
theorem exec_keysetup_success {t : State} (h : exec (.keysetup ra rb rc v) s = .next t) (herr : t.errcode = .noError) :
    ∃ p q d, s.snap.get ra = some p ∧ s.snap.get rb = some q ∧ s.snap.get rc = some d ∧ KeyConstructible s.params.k p q d
      ∧ (v = true → keyValidation p q d = none) ∧ t = s.complete (.ok none false (some (newKey p q d))) := by
  obtain ⟨o, ho, hanswer⟩ := exec_keysetup_answer ra rb rc v s
  obtain rfl : t = s.complete o := Host.Outcome.next.inj (h.symm.trans ho)
  obtain ⟨c, src, ⟨hc, -⟩, -, rfl⟩ | ⟨hkey, p, q, d, hp, hq, hd, hcon, rfl⟩ := hanswer
  · exact absurd herr hc
  · refine ⟨p, q, d, hp, hq, hd, hcon, fun hv => ?_, rfl⟩
    subst hv
    rw [Option.eq_none_iff_forall_ne_some]
    intro slot hslot
    have hfailed := Host.Outcome.next.inj ((exec_keysetup_of_invalid hkey hp hq hd hslot).symm.trans h)
    simp [← hfailed, State.failed] at herr

end Keysetup

/-! ### The key invariant (R36, R79) -/

/-- The key KEYSETUP writes, in the register that holds d too. -/
theorem KeyConstructible.inverse {k : Nat} {p q d : Int} (h : KeyConstructible k p q d) :
    IsModinv (newKey p q d).d ((p - 1) * (q - 1)) (newKey p q d).e := by
  rw [h.d_eq]
  exact h.e_spec

theorem KeyConstructible.keyWf {k : Nat} {p q d : Int} (h : KeyConstructible k p q d) (s : State) :
    (s.complete (.ok none false (some (newKey p q d)))).KeyWf :=
  fun _ => ⟨p, q, h.two_le_p, h.two_le_q, h.n_eq, h.inverse⟩

theorem State.KeyWf.of_sameKey {s t : State} (hs : s.KeyWf) (h : SameKey t s) : t.KeyWf := by
  obtain ⟨hv, hn, hd, he⟩ := h
  rwa [State.KeyWf, hv, hn, hd, he]

theorem Instr.isKeysetup_iff (i : Instr) : i.isKeysetup = true ↔ ∃ ra rb rc v, i = .keysetup ra rb rc v := by
  cases i <;> simp [Instr.isKeysetup]

/-- Settles O32: O31 says when a step changes the key state: a successful KEYSETUP makes a key with the invariant, and after reset there is no key. -/
theorem stepKeepsTheKeyInvariant : Obligations.StepKeepsTheKeyInvariant := by
  intro s t hs h
  obtain ⟨hstep, -, -⟩ := keyStateHasExactlyTwoTransitions
  obtain hsame | ⟨hturn, -, -, herr, w, i, hp, hd, hi⟩ | ⟨-, hv⟩ := hstep s t h
  · exact hs.of_sameKey hsame
  · obtain ⟨ra, rb, rc, v, rfl⟩ := (Instr.isKeysetup_iff i).mp hi
    rw [stepCompletesTheDecodedCommand s w _ hturn hp hd] at h
    obtain ⟨p, q, d, -, -, -, hcon, -, rfl⟩ := exec_keysetup_success h herr
    exact hcon.keyWf _
  · exact fun hv' => absurd hv' (by simp [hv])

/-! ### The statements about KEYSETUP (R79, R81) -/

/-- The bound on p·q as a key register sees it. -/
theorem toNat_lt_two_pow {k : Nat} {n : Int} (h : n < 2 ^ k) : n.toNat < 2 ^ k := by
  rw [Int.toNat_lt' (by positivity)]
  exact_mod_cast h

theorem two_pow_le_toNat {k : Nat} {n : Int} (h : 2 ^ k ≤ n) : 2 ^ k ≤ n.toNat :=
  (Int.le_toNat (by linarith [pow_pos (zero_lt_two' Int) k])).mpr (by exact_mod_cast h)

/-- Settles O17: CLS step 1 passes, and what it has checked implies the structural checks. -/
theorem validatedKeysetupWritesTheKey : Obligations.ValidatedKeysetupWritesTheKey := by
  intro s ra rb rc p q d hkey hp hq hd hprime hprime' hlo hhi hg hn
  have hvalid : ExponentValid p q d := ⟨hlo, hhi, hg⟩
  exact exec_keysetup_writes_key hkey hp hq hd (fun _ => keyValidation_of_exponentValid hprime hprime' hvalid)
    (.of_valid hprime hprime' hvalid (toNat_lt_two_pow hn))

/-- Settles O18: with V = 0 the structural checks and coprimality are all there is. -/
theorem unvalidatedKeysetupWritesTheKey : Obligations.UnvalidatedKeysetupWritesTheKey := by
  intro s ra rb rc p q d hkey hp hq hd hp2 hq2 hd0 hg hn
  exact exec_keysetup_writes_key hkey hp hq hd nofun ⟨hp2, hq2, hd0, toNat_lt_two_pow hn, isGcd_one_iff.mp hg⟩

/-- Settles O19: each clause says which check of CLS step 1 is the first to fail. -/
theorem keysetupValidationErrors : Obligations.KeysetupValidationErrors := by
  intro s ra rb rc p q d c hkey hp hq hd
  refine ⟨fun hprime => ?_, fun hprime hprime' => ?_, fun hprime hprime' hrange => ?_, fun hprime hprime' _ _ hc hcd hcphi => ?_⟩ <;>
    apply exec_keysetup_of_invalid hkey hp hq hd
  · exact keyValidation_of_not_prime_left q d hprime
  · exact keyValidation_of_not_prime_right d hprime hprime'
  · exact keyValidation_of_not_exponentValid hprime hprime' fun hvalid => hrange ⟨hvalid.1, hvalid.2.1⟩
  · exact keyValidation_of_not_exponentValid hprime hprime' fun hvalid => gcdAbs_ne_one hc hcd hcphi (isGcd_one_iff.mp hvalid.2.2)

/-- Settles O20: with V = 0, or a key that passes CLS step 1, each clause says which later check is the first to fail. -/
theorem keysetupConstructionErrors : Obligations.KeysetupConstructionErrors := by
  intro s ra rb rc p q d c hkey hp hq hd
  refine ⟨fun hp2 => ?_, fun hp2 hq2 => ?_, fun hp2 hq2 hd0 => ?_, fun hp2 hq2 hd0 hn => ?_, fun hp2 hq2 hd0 hn hc hcd hcphi => ?_,
    fun hprime hprime' hlo hhi hg hn => ?_⟩
  · exact exec_keysetup_of_construct_error hkey hp hq hd nofun (keyConstruct_of_left_lt _ q d hp2)
  · exact exec_keysetup_of_construct_error hkey hp hq hd nofun (keyConstruct_of_right_lt _ d hp2 hq2)
  · exact exec_keysetup_of_construct_error hkey hp hq hd nofun (keyConstruct_of_exponent_neg _ hp2 hq2 hd0)
  · exact exec_keysetup_of_construct_error hkey hp hq hd nofun (keyConstruct_of_overflow hp2 hq2 hd0 (two_pow_le_toNat hn))
  · exact exec_keysetup_of_construct_error hkey hp hq hd nofun
      (keyConstruct_of_not_coprime hp2 hq2 hd0 (toNat_lt_two_pow hn) (gcdAbs_ne_one hc hcd hcphi))
  · exact exec_keysetup_of_construct_error hkey hp hq hd (fun _ => keyValidation_of_exponentValid hprime hprime' ⟨hlo, hhi, hg⟩)
      (keyConstruct_of_overflow hprime.1 hprime'.1 (by linarith) (two_pow_le_toNat hn))

/-- A successful KEYSETUP with V = 1 leaves a key that R79 calls validated, for its operands p and q. -/
theorem keyValidated_of_keysetup {s t : State} {ra rb rc : Reg} {p q : Int} (h : exec (.keysetup ra rb rc true) s = .next t)
    (herr : t.errcode = .noError) (hp : s.snap.get ra = some p) (hq : s.snap.get rb = some q) :
    KeyValidated t.keyN t.keyD t.keyE p q := by
  obtain ⟨p', q', d, hp', hq', -, hcon, hvalid, rfl⟩ := exec_keysetup_success h herr
  obtain rfl : p = p' := Option.some.inj (hp.symm.trans hp')
  obtain rfl : q = q' := Option.some.inj (hq.symm.trans hq')
  obtain ⟨hprime, hprime', hlo, hhi, hg⟩ := valid_of_keyValidation_eq_none (hvalid rfl)
  change KeyValidated (newKey p q d).n (newKey p q d).d (newKey p q d).e p q
  refine ⟨hprime, hprime', hcon.n_eq, ?_, ?_, ?_, hcon.inverse⟩ <;> rwa [hcon.d_eq]

/-- Settles O33: the invariant comes from what every key is made of, the rest from CLS step 1. -/
theorem keysetupGuarantees : Obligations.KeysetupGuarantees := by
  intro s t ra rb rc v h herr
  obtain ⟨p, q, d, hp, hq, -, hcon, -, ht⟩ := exec_keysetup_success h herr
  refine ⟨ht ▸ hcon.keyWf s, ht ▸ rfl, fun hv => ⟨p, q, hp, hq, ?_⟩⟩
  subst hv
  exact keyValidated_of_keysetup h herr hp hq

/-! ### The hash image as a congruence (R11, R80) -/

/-- R11: `modpow(b, x, m)` is the residue of b^x in [0, m). -/
theorem isModpow_iff_modEq {b m r : Int} {x : Nat} : IsModpow b x m r ↔ 0 ≤ r ∧ r < m ∧ b ^ x ≡ r [ZMOD m] := by
  have hmodEq : ∀ a c : Int, m ∣ a - c ↔ a ≡ c [ZMOD m] := fun a c => by rw [Int.modEq_comm, Int.modEq_iff_dvd]
  simp only [IsModpow, IsEmod, hmodEq]
  constructor
  · rintro ⟨y, ⟨-, -, hy⟩, h0, h1, hr⟩
    exact ⟨h0, h1, (hy.pow x).trans hr⟩
  · rintro ⟨h0, h1, hr⟩
    obtain ⟨hb0, hb1, hb⟩ := emod_spec b (h0.trans_lt h1)
    rw [hmodEq] at hb
    exact ⟨emod b m, ⟨hb0, hb1, hb⟩, h0, h1, (hb.symm.pow x).trans hr⟩

/-! #### The gate -/

theorem hashImage_of_lt {n : Nat} {value : Int} (exponent : Nat) (slot : Slot) (go : Nat → CmdOutcome) (h : value.natAbs < n) :
    hashImage n value exponent slot go = go (modpow value exponent n).toNat :=
  if_neg h.not_ge

theorem hashImage_of_le {n : Nat} {value : Int} (exponent : Nat) (slot : Slot) (go : Nat → CmdOutcome) (h : n ≤ value.natAbs) :
    hashImage n value exponent slot go = .error .modulusTooSmall slot :=
  if_pos h

/-- The number the gate passes on is the hash image. -/
theorem hashImage_isModpow {n : Nat} {value : Int} (exponent : Nat) (h : value.natAbs < n) :
    IsModpow value exponent n (modpow value exponent n).toNat := by
  have hn : (0 : Int) < n := by omega
  rw [Int.toNat_of_nonneg (modpow_range value hn).1, isModpow_iff hn]
  exact modpow_eq value hn

/-! ### SIGN and VERIFY with written operands and a key (R82, R83, R94) -/

section HashImage

variable {s : State} {ra rb : Reg} {x h : Int}

theorem exec_sign_of_operand (rd : Reg) (hkey : s.keyv = true) (hx : s.snap.get ra = some x) :
    exec (.sign rd ra) s = finishCommand (signCommand rd s.keyN s.keyD x) s := by
  rw [exec, execSign, needKey, if_pos hkey, needOperand_some hx]

theorem exec_verify_of_operands (hkey : s.keyv = true) (hx : s.snap.get ra = some x) (hh : s.snap.get rb = some h) :
    exec (.verify ra rb) s = finishCommand (verifyCommand s.keyN s.keyE x h) s := by
  rw [exec, execVerify, needKey, if_pos hkey, needSignature_some hx, needOperand_some hh]

end HashImage

/-- Settles O21: the gate passes the digest, and SIGN writes its hash image. -/
theorem signWritesTheHashImage : Obligations.SignWritesTheHashImage := by
  intro s rd ra h hkey hh hlt
  refine ⟨_, hashImage_isModpow s.keyD hlt, ?_⟩
  rw [exec_sign_of_operand rd hkey hh, signCommand, hashImage_of_lt _ _ _ hlt, finishCommand_result]

/-- Settles O22: the hash image is one number, so comparing h with it decides whether h is one. -/
theorem verifyComparesTheHashImage : Obligations.VerifyComparesTheHashImage := by
  intro s ra rb sig h hkey hsig hh hlt
  have hn : (0 : Int) < s.keyN := by omega
  have himage := (isModpow_iff hn).mp (hashImage_isModpow s.keyE hlt)
  refine ⟨decide (h = ((modpow sig s.keyE s.keyN).toNat : Int)), ?_, ?_⟩
  · rw [decide_eq_true_iff, himage, isModpow_iff hn]
  · rw [exec_verify_of_operands hkey hsig hh, verifyCommand, hashImage_of_lt _ _ _ hlt, finishCommand_flag]

/-- Settles O23: the gate comes first in both commands. -/
theorem hashImageGateRejects : Obligations.HashImageGateRejects := by
  intro s rd ra rb x h hkey hx hh hge
  constructor
  · rw [exec_sign_of_operand rd hkey hx, signCommand, hashImage_of_le _ _ _ hge, finishCommand_error]
  · rw [exec_verify_of_operands hkey hx hh, verifyCommand, hashImage_of_le _ _ _ hge, finishCommand_error]

/-! ### Raising to d·e is the identity modulo p·q (R85) -/

theorem IsPrimeValue.natAbs_prime {p : Int} (hp : IsPrimeValue p) : p.natAbs.Prime := by
  obtain ⟨h0, hprime⟩ := (isPrime_iff_prime p).mp ((isPrime_isPrimeValue p).mpr hp)
  have habs : p.natAbs = p.toNat := by omega
  rwa [habs]

/-- Fermat's little theorem, for an exponent m with m ≡ 1 modulo p − 1 and a base that p may divide. -/
theorem pow_modEq_self_of_prime {p : Int} (hp : IsPrimeValue p) {m : Nat} (hm : m ≠ 0) (hdvd : p - 1 ∣ (m : Int) - 1) (x : Int) :
    x ^ m ≡ x [ZMOD p] := by
  have hprime := hp.natAbs_prime
  lift p to Nat using by linarith [hp.1]
  rw [Int.natAbs_natCast] at hprime
  have hmod : m ≡ 1 [MOD p - 1] := by
    rw [Nat.ModEq.comm, Nat.modEq_iff_dvd, Nat.cast_sub hprime.one_le]
    exact hdvd
  have : Fact p.Prime := ⟨hprime⟩
  rw [← ZMod.intCast_eq_intCast_iff, Int.cast_pow]
  by_cases hx : (x : ZMod p) = 0
  · rw [hx, zero_pow hm]
  · rw [pow_eq_pow_of_modEq hmod (ZMod.pow_card_sub_one_eq_one hx), pow_one]

/-- The same modulo each of two different primes is the same modulo their product. -/
theorem modEq_mul_of_primes {p q a b : Int} (hp : IsPrimeValue p) (hq : IsPrimeValue q) (hne : p ≠ q) (hap : a ≡ b [ZMOD p])
    (haq : a ≡ b [ZMOD q]) : a ≡ b [ZMOD p * q] := by
  have hne' : p.natAbs ≠ q.natAbs := by
    have := hp.1
    have := hq.1
    omega
  have hcoprime : p.natAbs.Coprime q.natAbs := (Nat.coprime_primes hp.natAbs_prime hq.natAbs_prime).mpr hne'
  exact (Int.modEq_and_modEq_iff_modEq_mul hcoprime).mp ⟨hap, haq⟩

section Validated

variable {n d e : Nat} {p q : Int} (hkey : KeyValidated n d e p q) (hne : p ≠ q)

include hkey

/-- φ divides d·e − 1 and is above 2, so d·e is not 0. -/
theorem KeyValidated.exponents_ne_zero : d * e ≠ 0 := by
  obtain ⟨-, -, -, hlo, hhi, -, -, -, hdvd⟩ := hkey
  intro hzero
  have hminus : (p - 1) * (q - 1) ∣ -1 := by simpa [← Nat.cast_mul, hzero] using hdvd
  have := Int.le_of_dvd one_pos (Int.dvd_neg.mp hminus)
  linarith

include hne

theorem KeyValidated.pow_modEq_self (x : Int) : x ^ (d * e) ≡ x [ZMOD n] := by
  have hpos := hkey.exponents_ne_zero
  obtain ⟨hp, hq, hn, -, -, -, -, -, hdvd⟩ := hkey
  rw [← Nat.cast_mul] at hdvd
  rw [hn]
  exact modEq_mul_of_primes hp hq hne (pow_modEq_self_of_prime hp hpos (dvd_of_mul_right_dvd hdvd) x)
    (pow_modEq_self_of_prime hq hpos (dvd_of_mul_left_dvd hdvd) x)

/-- R85, R87: x verifies against a digest exactly when it is congruent to the digest's signature. -/
theorem KeyValidated.isModpow_verify_iff {h sig : Int} (hsig : IsModpow h d n sig) (h0 : 0 ≤ h) (hlt : h < n) (x : Int) :
    IsModpow x e n h ↔ (n : Int) ∣ x - sig := by
  obtain ⟨-, -, hsign⟩ := isModpow_iff_modEq.mp hsig
  rw [isModpow_iff_modEq, ← Int.modEq_iff_dvd]
  constructor
  · rintro ⟨-, -, hverify⟩
    calc sig ≡ h ^ d [ZMOD n] := hsign.symm
      _ ≡ (x ^ e) ^ d [ZMOD n] := hverify.symm.pow d
      _ = x ^ (d * e) := by rw [← pow_mul, Nat.mul_comm]
      _ ≡ x [ZMOD n] := hkey.pow_modEq_self hne x
  · intro hx
    refine ⟨h0, hlt, ?_⟩
    calc x ^ e ≡ sig ^ e [ZMOD n] := hx.symm.pow e
      _ ≡ (h ^ d) ^ e [ZMOD n] := hsign.symm.pow e
      _ = h ^ (d * e) := by rw [← pow_mul]
      _ ≡ h [ZMOD n] := hkey.pow_modEq_self hne h

end Validated

/-! ### Signing and verifying under one key (R85, R87) -/

/-- The result in rd tells two completions with a result apart. -/
theorem succeeded_regsWith_injective {s : State} {rd : Reg} {v w : Nat}
    (h : s.succeeded (s.regsWith rd v) false = s.succeeded (s.regsWith rd w) false) : v = w := by
  have hregs : s.regsWith rd v = s.regsWith rd w := congrArg State.regs h
  have hmag := congrArg (fun b : Bank OpReg => (b.get rd).mag) hregs
  simpa [State.regsWith] using hmag

section SameKey

variable {t : State} (hkeyv : t.keyv = true) {h : Int} (hlt : h < t.keyN)

include hkeyv hlt

/-- SIGN under the key of t gives the hash image under that key. -/
theorem exec_sign_sameKey {u : State} (hu : SameKey u t) (rd : Reg) {rh : Reg} (hh : u.snap.get rh = some h) (h0 : 0 ≤ h) :
    ∃ sig : Nat, IsModpow h t.keyD t.keyN sig ∧ exec (.sign rd rh) u = .next (u.succeeded (u.regsWith rd sig) false) := by
  obtain ⟨hv, hn, hd, -⟩ := hu
  rw [← hn, ← hd]
  exact signWritesTheHashImage u rd rh h (hv.trans hkeyv) hh (by omega)

/-- VERIFY under the validated key of t compares residues: RESULT is 1 exactly when x is congruent to the digest's signature. -/
theorem exec_verify_sameKey {v : State} (hv : SameKey v t) {ra rb : Reg} {p q x sig : Int}
    (hkey : KeyValidated t.keyN t.keyD t.keyE p q) (hne : p ≠ q) (hsig : IsModpow h t.keyD t.keyN sig) (h0 : 0 ≤ h)
    (hx : v.snap.get ra = some x) (hh : v.snap.get rb = some h) (hgate : x.natAbs < t.keyN) :
    ∃ res : Bool, (res = true ↔ (t.keyN : Int) ∣ x - sig) ∧ exec (.verify ra rb) v = .next (v.succeeded v.regs res) := by
  obtain ⟨hv, hn, -, he⟩ := hv
  obtain ⟨res, hres, hexec⟩ := verifyComparesTheHashImage v ra rb x h (hv.trans hkeyv) hx hh (by rwa [hn])
  rw [hn, he] at hres
  exact ⟨res, hres.trans (hkey.isModpow_verify_iff hne hsig h0 hlt x), hexec⟩

end SameKey

/-- Settles O34: the signature is in range, and congruent to itself. -/
theorem signThenVerifyRoundTrip : Obligations.SignThenVerifyRoundTrip := by
  intro s t u v rp rq rk rh rd ra rb p q h hsetup herr hp hq hne hu hv hh h0 hlt
  have hkey := keyValidated_of_keysetup hsetup herr hp hq
  obtain ⟨-, hkeyv, -⟩ := keysetupGuarantees s t rp rq rk true hsetup herr
  obtain ⟨sig, hsig, hsign⟩ := exec_sign_sameKey hkeyv hlt hu rd hh h0
  refine ⟨sig, hsign, fun hx hb => ?_⟩
  obtain ⟨-, hrange, -⟩ := isModpow_iff_modEq.mp hsig
  obtain ⟨res, hres, hverify⟩ := exec_verify_sameKey hkeyv hlt hv hkey hne hsig h0 hx hb (by omega)
  obtain rfl : res = true := hres.mpr (by simp)
  exact hverify

/-- Settles O35: SIGN's result is the hash image, whose residue VERIFY compares; the other clause is the gate's. -/
theorem tamperedSignatureIsDetectedByResidue : Obligations.TamperedSignatureIsDetectedByResidue := by
  intro s t u v rp rq rk rh rd ra rb p q h x sig hsetup herr hp hq hne hu hv hh h0 hlt hsign hx hb
  have hkey := keyValidated_of_keysetup hsetup herr hp hq
  obtain ⟨-, hkeyv, -⟩ := keysetupGuarantees s t rp rq rk true hsetup herr
  obtain ⟨sig', hsig, hsign'⟩ := exec_sign_sameKey hkeyv hlt hu rd hh h0
  obtain rfl : sig = sig' := succeeded_regsWith_injective (Host.Outcome.next.inj (hsign.symm.trans hsign'))
  refine ⟨fun hgate => exec_verify_sameKey hkeyv hlt hv hkey hne hsig h0 hx hb hgate, fun hge => ?_⟩
  obtain ⟨hvv, hvn, -, -⟩ := hv
  exact (hashImageGateRejects v rd ra rb x h (hvv.trans hkeyv) hx hb (by rwa [hvn])).2

end Sys2Proof.Machine

namespace Sys2Proof.Machine

/-! ### The error entry (R89, R93, R95) -/

/-- A completion that sets ERRCODE is a failed one, whatever command it completes. -/
theorem State.complete_of_errcode_ne {o : CmdOutcome} {s : State} (h : (s.complete o).errcode ≠ .noError) :
    ∃ c src, s.complete o = s.failed c src := by
  cases o with
  | ok dst res key => exact absurd rfl h
  | error c src => exact ⟨c, src, s.raise_failed c src⟩

/-- Settles O29: a command is answered by a completion, and one that sets ERRCODE is the failed one, with RESULT = 0. -/
theorem everyCommandCompletes : Obligations.EveryCommandCompletes := by
  intro i s
  obtain ⟨o, ho⟩ := exec_completes i s
  obtain ⟨hpending, hdone⟩ := s.complete_ends o
  refine ⟨s.complete o, ho, hpending, hdone, fun herr => ?_⟩
  obtain ⟨c, src, hfailed⟩ := State.complete_of_errcode_ne herr
  rw [hfailed, State.failed]

/-- The engine's turn that sets ERRCODE is a failed completion of the pending word, a word that is no command included. -/
theorem engineTurn_of_errcode_ne {s t : State} (hp : s.pending ≠ none) (h : engineTurn s = .next t) (herr : t.errcode ≠ .noError) :
    ∃ c src, t = s.failed c src := by
  obtain ⟨hidle, -⟩ | ⟨w, o, -, hturn, -⟩ := engineTurn_cases s
  · exact absurd hidle hp
  · cases h.symm.trans hturn
    exact State.complete_of_errcode_ne herr

/-- While a command is pending no host access writes an operand register (R29). -/
theorem host_step_regs_of_pending {s t : State} (h : step s = .next t) (hturn : s.takeTurn.1 = .host) (hp : s.pending ≠ none) :
    t.regs = s.regs := by
  obtain ⟨ops, ts, rfl | ⟨l, rfl⟩ | ⟨l, w, -, rfl⟩⟩ := host_step_effect h hturn
  · rfl
  · rfl
  · obtain ⟨hidle, -⟩ | ⟨-, -, -, -, -, -, -, hregs⟩ := State.busWrite_issues_or_frame l w { s with host := ops, turns := ts }
    · exact absurd hidle hp
    · exact hregs hp

/-- Settles O28: `failed` keeps the registers and the key, a host step finds them locked, and a failed KEYSETUP keeps the key state (O31). -/
theorem failedCompletionWritesNothing : Obligations.FailedCompletionWritesNothing := by
  refine ⟨fun s t hturn hp h herr => ?_, fun s t hturn hp h => ⟨host_step_regs_of_pending h hturn hp, host_step_sameKey h hturn⟩,
    fun s t ra rb rc v hkey h herr => ?_⟩
  · rw [step_of_engine hturn] at h
    obtain ⟨c, src, rfl⟩ := engineTurn_of_errcode_ne (by rwa [State.takeTurn_pending]) h herr
    simp [State.failed, SameKey]
  · obtain ⟨-, hkeysetup, -⟩ := keyStateHasExactlyTwoTransitions
    obtain ⟨-, hfail, -⟩ := hkeysetup s t ra rb rc v h
    obtain ⟨hsame, -⟩ := hfail herr
    exact hsame.trans hkey

/-! ### Issue (R92) -/

/-- Settles O50: a pending command drops the word; else the word is accepted, with the snapshot of the register file. -/
theorem cmdWriteIssuesOrIsDropped : Obligations.CmdWriteIssuesOrIsDropped := by
  intro s w
  refine ⟨State.issue_of_pending w, fun hidle => ⟨snapshot s.regs, fun r => ?_, State.issue_of_idle w hidle⟩⟩
  rw [snapshot_get]
  rfl

/-! ### The key-state check (R94, stage 2) -/

theorem needKey_of_key {keyv : Bool} (h : keyv = true) (go : CmdOutcome) : needKey keyv go = go :=
  if_pos h

theorem needKey_of_no_key {keyv : Bool} (h : keyv = false) (go : CmdOutcome) : needKey keyv go = .error .keyNotReady .noSlot :=
  if_neg (by simp [h])

theorem needNoKey_of_key {keyv : Bool} (h : keyv = true) (go : CmdOutcome) : needNoKey keyv go = .error .keyLocked .noSlot :=
  if_pos h

theorem needNoKey_of_no_key {keyv : Bool} (h : keyv = false) (go : CmdOutcome) : needNoKey keyv go = go :=
  if_neg (by simp [h])

/-- Settles O25: the answers of the four commands are guarded by the key-state check, whatever stands behind it. -/
theorem keyStateIsCheckedBeforeOperands : Obligations.KeyStateIsCheckedBeforeOperands := by
  intro s rd ra rb rc v sel
  refine ⟨fun hkey => ?_, fun hkey => ?_⟩
  · have hcheck : ∀ go, finishCommand (needKey s.keyv go) s = .next (s.failed .keyNotReady .noSlot) := fun go => by
      rw [needKey_of_no_key hkey, finishCommand_error]
    exact ⟨hcheck _, hcheck _, hcheck _⟩
  · rw [exec, execKeysetup, needNoKey_of_key hkey, finishCommand_error]

/-! ### The operand checks (R94, stage 3) -/

/-- The first of the source slots whose register is unwritten in SNAP. -/
def firstUnwritten (snap : Bank (Option Int)) (sources : List (Slot × Reg)) : Option (Slot × Reg) :=
  sources.find? fun x => (snap.get x.2).isNone

/-- A slot that is unwritten, with every slot before it written, is the first unwritten one. -/
theorem firstUnwritten_append_cons {snap : Bank (Option Int)} {before : List (Slot × Reg)} {slot : Slot} {r : Reg}
    (after : List (Slot × Reg)) (hbefore : ∀ x ∈ before, snap.get x.2 ≠ none) (hr : snap.get r = none) :
    firstUnwritten snap (before ++ (slot, r) :: after) = some (slot, r) := by
  refine List.find?_eq_some_iff_append.mpr ⟨by simp [hr], before, after, rfl, fun x hx => ?_⟩
  simpa [Option.isSome_iff_ne_none] using hbefore x hx

/-- The outcome `o` is the error `err` gives the first unwritten source slot, if there is one. -/
def CmdOutcome.Blames (err : Slot → ErrCode) (snap : Bank (Option Int)) (sources : List (Slot × Reg)) (o : CmdOutcome) : Prop :=
  ∀ slot r, firstUnwritten snap sources = some (slot, r) → o = .error (err slot) slot

section Blames

variable {err : Slot → ErrCode} {snap : Bank (Option Int)} {rest : List (Slot × Reg)} {slot : Slot} {r : Reg} {o : CmdOutcome}

/-- Without a source no slot is unwritten. -/
theorem CmdOutcome.blames_nil (o : CmdOutcome) : o.Blames err snap [] := nofun

theorem CmdOutcome.blames_cons_of_none (hr : snap.get r = none) (ho : o = .error (err slot) slot) :
    o.Blames err snap ((slot, r) :: rest) := by
  intro slot' r' hfirst
  obtain ⟨rfl, -⟩ : slot = slot' ∧ r = r' := by simpa [firstUnwritten, hr] using hfirst
  exact ho

theorem CmdOutcome.blames_cons_of_some {v : Int} (hr : snap.get r = some v) (ho : o.Blames err snap rest) :
    o.Blames err snap ((slot, r) :: rest) := by
  intro slot' r' hfirst
  exact ho slot' r' (by simpa [firstUnwritten, hr] using hfirst)

theorem needOperand_blames {go : Int → CmdOutcome} (herr : err slot = .unwrittenOperand) (hgo : ∀ v, (go v).Blames err snap rest) :
    (needOperand snap slot r go).Blames err snap ((slot, r) :: rest) := by
  cases hr : snap.get r with
  | none => exact CmdOutcome.blames_cons_of_none hr (by rw [needOperand_none hr, herr])
  | some v => exact CmdOutcome.blames_cons_of_some hr (by rw [needOperand_some hr]; exact hgo v)

theorem needSignature_blames {go : Int → CmdOutcome} (herr : err .ra = .invalidSignatureFormat)
    (hgo : ∀ v, (go v).Blames err snap rest) : (needSignature snap r go).Blames err snap ((.ra, r) :: rest) := by
  cases hr : snap.get r with
  | none => exact CmdOutcome.blames_cons_of_none hr (by rw [needSignature_none hr, herr])
  | some v => exact CmdOutcome.blames_cons_of_some hr (by rw [needSignature_some hr]; exact hgo v)

end Blames

/-- Past the key-state check, every command blames its first unwritten source slot, in the order of its row of R94's slot table. -/
theorem exec_blames {i : Instr} {s : State} (hkey : i.keyStage s.keyv = none) :
    ∃ o, exec i s = finishCommand o s ∧ o.Blames i.unwrittenError s.snap i.sources := by
  cases i with
  | nop => exact ⟨_, rfl, CmdOutcome.blames_nil _⟩
  | modred | modinv | gcd =>
    exact ⟨_, rfl, needOperand_blames rfl fun _ => needOperand_blames rfl fun _ => CmdOutcome.blames_nil _⟩
  | modmul | modpow =>
    exact ⟨_, rfl, needOperand_blames rfl fun _ => needOperand_blames rfl fun _ => needOperand_blames rfl fun _ =>
      CmdOutcome.blames_nil _⟩
  | isprime => exact ⟨_, rfl, needOperand_blames rfl fun _ => CmdOutcome.blames_nil _⟩
  | keysetup =>
    have hkeyv : s.keyv = false := by simpa [Instr.keyStage] using hkey
    rw [exec, execKeysetup, needNoKey_of_no_key hkeyv]
    exact ⟨_, rfl, needOperand_blames rfl fun _ => needOperand_blames rfl fun _ => needOperand_blames rfl fun _ =>
      CmdOutcome.blames_nil _⟩
  | sign =>
    have hkeyv : s.keyv = true := by simpa [Instr.keyStage] using hkey
    rw [exec, execSign, needKey_of_key hkeyv]
    exact ⟨_, rfl, needOperand_blames rfl fun _ => CmdOutcome.blames_nil _⟩
  | verify =>
    have hkeyv : s.keyv = true := by simpa [Instr.keyStage] using hkey
    rw [exec, execVerify, needKey_of_key hkeyv]
    exact ⟨_, rfl, needSignature_blames rfl fun _ => needOperand_blames rfl fun _ => CmdOutcome.blames_nil _⟩
  | keyrd => exact ⟨_, rfl, CmdOutcome.blames_nil _⟩

/-- Settles O26: the slot is the first unwritten one, which every command past the key-state check blames. -/
theorem firstUnwrittenSlotDecides : Obligations.FirstUnwrittenSlotDecides := by
  intro s i before after slot r hkey hsources hbefore hr
  obtain ⟨o, ho, hblames⟩ := exec_blames hkey
  rw [hsources] at hblames
  rw [ho, hblames slot r (firstUnwritten_append_cons after hbefore hr), finishCommand_error]

/-! ### The outcome as a function of SNAP, the key state and K (R38, R93, R111) -/

/-- Two states with the same arguments of R93's Execute. -/
def SameInputs (s u : State) : Prop := s.snap = u.snap ∧ SameKey s u ∧ s.params.k = u.params.k

theorem SameInputs.refl (s : State) : SameInputs s s := ⟨rfl, ⟨rfl, rfl, rfl, rfl⟩, rfl⟩

/-- The state with rd unwritten. SNAP stays: it was captured at issue. -/
def State.withUnwritten (rd : Reg) (s : State) : State :=
  { s with regs := s.regs.set rd { sign := false, valid := false, mag := 0 } }

theorem State.sameInputs_withUnwritten (rd : Reg) (s : State) : SameInputs s (s.withUnwritten rd) := SameInputs.refl s

theorem State.withUnwritten_valid (rd : Reg) (s : State) : ((s.withUnwritten rd).regs.get rd).valid = false := by
  simp [State.withUnwritten]

/-- A command has one outcome in all the states with the same arguments. -/
theorem exec_same_outcome (i : Instr) (s : State) : ∃ o, ∀ u, SameInputs s u → exec i u = .next (u.complete o) := by
  cases i with
  | keyrd rd sel =>
    cases sel <;>
    · apply Exists.intro
      rintro u ⟨-, ⟨hv, hn, -, he⟩, -⟩
      simp only [exec, execKeyrd, State.publicKey, ← hv, ← hn, ← he]
      rfl
  | _ =>
    apply Exists.intro
    rintro u ⟨hsnap, ⟨hv, hn, hd, he⟩, hk⟩
    simp only [exec, execNop, execModred, execModmul, execModpow, execGcd, execModinv, execIsprime, execKeysetup, execSign, execVerify,
      ← hsnap, ← hv, ← hn, ← hd, ← he, ← hk]
    rfl

/-- A success writes the destination register (R32, R93). -/
theorem exec_success_valid {i : Instr} {s t : State} {rd : Reg} (hdst : i.dst? = some rd) (h : exec i s = .next t)
    (herr : t.errcode = .noError) : (t.regs.get rd).valid = true := by
  obtain ⟨o, ho, hallowed⟩ := exec_allowed i s
  cases h.symm.trans ho
  cases o with
  | error c src =>
    obtain ⟨hc, -⟩ := hallowed
    exact absurd herr hc
  | ok dst res key =>
    obtain ⟨hfst, -⟩ := hallowed
    obtain ⟨⟨r, v⟩, rfl, rfl⟩ := Option.map_eq_some_iff.mp (hfst.trans hdst)
    simp [State.complete, State.completeOk, OpReg.ofResult]

/-- An outcome that makes a written register of an unwritten one writes the same result there in every state. -/
theorem State.complete_get_congr {o : CmdOutcome} {z : State} {rd : Reg} (hz : (z.regs.get rd).valid = false)
    (ho : ((z.complete o).regs.get rd).valid = true) (s u : State) : (s.complete o).regs.get rd = (u.complete o).regs.get rd := by
  obtain hregs | ⟨r, v, res, key, rfl, hregs⟩ := z.complete_regs o
  · simp [hregs, hz] at ho
  · obtain rfl : rd = r := by
      by_contra hne
      simp [hregs, hne, hz] at ho
    simp [State.complete, State.completeOk]

/-- The status a completion writes does not depend on the state (R93). -/
theorem State.complete_status (o : CmdOutcome) (s u : State) :
    (s.complete o).result = (u.complete o).result ∧ (s.complete o).errcode = (u.complete o).errcode
      ∧ (s.complete o).errsrc = (u.complete o).errsrc := by
  cases o <;> exact ⟨rfl, rfl, rfl⟩

theorem SameKey.complete {s u : State} (h : SameKey s u) (o : CmdOutcome) : SameKey (s.complete o) (u.complete o) := by
  match o with
  | .error c src => exact h
  | .ok dst res none => simpa [SameKey, State.complete, State.completeOk] using h
  | .ok dst res (some m) => exact ⟨rfl, rfl, rfl, rfl⟩

/-- Settles O30: s and u have one outcome, which fixes status and key. It fixes the destination too, since in the state that differs
from s in having that register unwritten its success writes it. -/
theorem outcomeDependsOnSnapshotAndKey : Obligations.OutcomeDependsOnSnapshotAndKey := by
  intro i s u t v hsnap hkey hk ht hv
  obtain ⟨o, ho⟩ := exec_same_outcome i s
  cases ht.symm.trans (ho s (.refl s))
  cases hv.symm.trans (ho u ⟨hsnap, hkey, hk⟩)
  obtain ⟨hresult, hcode, hsrc⟩ := State.complete_status o s u
  refine ⟨hresult, hcode, hsrc, hkey.complete o, fun rd hdst herr => ?_⟩
  have hexec := ho (s.withUnwritten rd) (s.sameInputs_withUnwritten rd)
  obtain ⟨-, hcode', -⟩ := State.complete_status o (s.withUnwritten rd) s
  exact State.complete_get_congr (s.withUnwritten_valid rd) (exec_success_valid hdst hexec (hcode'.trans herr)) s u

end Sys2Proof.Machine

namespace Sys2Proof.Machine

/-! ### The reset values (R30, R33, R106 to R108) -/

@[simp] theorem State.resetEvent_get_valid (s : State) (r : Reg) : (s.resetEvent.regs.get r).valid = false := by
  cases r <;> rfl

@[simp] theorem State.resetEvent_get_sign (s : State) (r : Reg) : (s.resetEvent.regs.get r).sign = false := by
  cases r <;> rfl

@[simp] theorem State.resetEvent_statusWord (s : State) : s.resetEvent.statusWord = 0#32 := by
  simp [State.statusWord, State.err, State.busy, ErrCode.code, Slot.code]

@[simp] theorem State.resetEvent_irq (s : State) : s.resetEvent.irq = false := by
  simp [State.irq]

/-- Settles O38: `State.reset` is the reference configuration with no value drawn before, and K = 2048 is allowed. -/
theorem resetHasTheInvariant : Obligations.ResetHasTheInvariant := by
  have hreference : Config.reference.wf = true := by decide
  refine ⟨?_, fun _ draw hp => State.afterReset_inv hp draw⟩
  rw [State.reset]
  exact State.afterReset_inv hreference 0

/-- Settles O39: the step is the reset event on s with that turn used up, and taking a turn keeps the parameters. -/
theorem resetGivesTheResetValues : Obligations.ResetGivesTheResetValues := by
  intro s hturn
  exact ⟨_, step_of_reset hturn, by simp⟩

/-! ### A host with legal accesses and no turns placed (R116, R117) -/

/-- No turns are placed, and the host makes only accesses RSACORE accepts. -/
structure State.LegalRun (s : State) : Prop where
  no_turns : s.turns = []
  legal : ∀ a, HostOp.access a ∈ s.host → a.Legal s.params

/-- How many steps are enough for such a run: two for each operation of the host (the access, and the completion of what it issued), and one
while a command is pending. -/
def State.stepsLeft (s : State) : Nat := 2 * s.host.length + s.busy.toNat

theorem State.stepsLeft_le (s : State) : s.stepsLeft ≤ 2 * s.host.length + 1 :=
  Nat.add_le_add_left s.busy.toNat_le _

/-- What is left of a legal run is one. -/
theorem State.LegalRun.of_subset {s t : State} (h : s.LegalRun) (hparams : t.params = s.params) (hturns : t.turns = s.turns)
    (hhost : t.host ⊆ s.host) : t.LegalRun :=
  ⟨hturns.trans h.no_turns, fun a ha => hparams ▸ h.legal a (hhost ha)⟩

theorem engineTurn_params {s t : State} (h : engineTurn s = .next t) : t.params = s.params := by
  obtain ⟨-, rfl⟩ | ⟨w, o, -, rfl, -⟩ := engineTurn_effect h
  · rfl
  · exact (s.complete_frame o).1

/-- The next operation of an idle engine's host is done in one host turn: a legal access is answered, and WAIT reads BUSY = 0. -/
theorem hostTurn_of_cons {s : State} {op : HostOp} {rest : List HostOp} (hhost : s.host = op :: rest) (hidle : s.busy = false)
    (hlegal : ∀ a, HostOp.access a ∈ s.host → a.Legal s.params) :
    ∃ t, hostTurn s = .next t ∧ t.params = s.params ∧ t.turns = s.turns ∧ t.host = rest := by
  cases op with
  | access a =>
    obtain ⟨t, ht⟩ := busAccess_next_of_legal (s := { s with host := rest }) (hlegal a (by simp [hhost]))
    obtain ⟨hparams, hrest, hturns, -⟩ := busAccess_frame ht
    exact ⟨t, (hostTurn_of_access hhost).trans ht, hparams, hturns, hrest⟩
  | wait => exact ⟨_, hostTurn_of_wait hhost, rfl, rfl, if_neg (by simp [hidle])⟩

/-- While a command is pending the engine moves: one step ends the command and leaves the host where it is. -/
theorem State.LegalRun.step_of_busy {s : State} (h : s.LegalRun) (hbusy : s.busy = true) :
    ∃ t, step s = .next t ∧ t.LegalRun ∧ t.stepsLeft < s.stepsLeft := by
  obtain ⟨t, ht, hidle⟩ := engineTurn_not_pending s.takeTurn.2
  obtain ⟨hhost, hturns, -⟩ := engineTurn_host_frame ht
  have hparams := engineTurn_params ht
  simp only [State.takeTurn_host, State.takeTurn_turns, State.takeTurn_params, h.no_turns, List.tail_nil] at hhost hturns hparams
  refine ⟨t, (step_of_engine (s.takeTurn_nil_busy h.no_turns hbusy)).trans ht, ?_, ?_⟩
  · exact h.of_subset hparams (hturns.trans h.no_turns.symm) (by simp [hhost])
  · have hfree : t.busy = false := by rw [State.busy, hidle, Option.isSome_none]
    simp [State.stepsLeft, hhost, hbusy, hfree]

/-- While none is pending the host moves: one step does its next operation, which may leave a command pending. -/
theorem State.LegalRun.step_of_idle {s : State} {op : HostOp} {rest : List HostOp} (h : s.LegalRun) (hidle : s.busy = false)
    (hhost : s.host = op :: rest) : ∃ t, step s = .next t ∧ t.LegalRun ∧ t.stepsLeft < s.stepsLeft := by
  obtain ⟨t, ht, hparams, hturns, hrest⟩ := hostTurn_of_cons (s := s.takeTurn.2) (s.takeTurn_host.trans hhost)
    (by simpa [State.busy] using hidle) (by simpa using h.legal)
  simp only [State.takeTurn_turns, State.takeTurn_params, h.no_turns, List.tail_nil] at hparams hturns
  refine ⟨t, (step_of_host (s.takeTurn_nil_idle h.no_turns hidle)).trans ht, ?_, ?_⟩
  · exact h.of_subset hparams (hturns.trans h.no_turns.symm) (by simp [hrest, hhost])
  · have hle := t.stepsLeft_le
    simp only [State.stepsLeft, hrest, hhost, List.length_cons] at hle ⊢
    omega

theorem State.LegalRun.ended_or_step {s : State} (h : s.LegalRun) :
    s.Ended ∨ ∃ t, step s = .next t ∧ t.LegalRun ∧ t.stepsLeft < s.stepsLeft := by
  cases hbusy : s.busy with
  | true => exact .inr (h.step_of_busy hbusy)
  | false =>
    cases hhost : s.host with
    | nil => exact .inl ⟨hhost, Option.not_isSome_iff_eq_none.mp (Bool.eq_false_iff.mp hbusy)⟩
    | cons op rest => exact .inr (h.step_of_idle hbusy hhost)

/-- Each step of a legal run that has not ended takes one off `stepsLeft`. -/
theorem State.LegalRun.run_ends {s : State} (h : s.LegalRun) :
    ∃ n, n ≤ s.stepsLeft ∧ ∃ t : State, core.run n s = .next t ∧ t.Ended := by
  obtain hended | ⟨t, hstep, ht, hlt⟩ := h.ended_or_step
  · exact ⟨0, Nat.zero_le _, s, rfl, hended⟩
  · obtain ⟨n, hn, u, hrun, hended⟩ := ht.run_ends
    exact ⟨n + 1, Nat.succ_le_of_lt (hn.trans_lt hlt), u, (core_run_succ hstep n).trans hrun, hended⟩
termination_by s.stepsLeft

/-- Settles O42: `stepsLeft` bounds the run, and it is at most two steps for each operation and one more. -/
theorem runOfLegalAccessesEnds : Obligations.RunOfLegalAccessesEnds := by
  intro s hturns hlegal
  obtain ⟨n, hn, hrun⟩ := State.LegalRun.run_ends ⟨hturns, hlegal⟩
  exact ⟨n, hn.trans s.stepsLeft_le, hrun⟩

end Sys2Proof.Machine
